-- ==== Sys2Proof/Word.lean ====
section
/-! DEFINITION. The words of the register bus: 32 bits a register word, 64 bits the seed, 8 bits a byte of the bridge. -/

namespace Sys2Proof

/-- One word of the register window and one command word (20_memory.md R60, 30_encoding.md R90). -/
abbrev Word := BitVec 32

/-- The SEED register (10_state.md R35). -/
abbrev Seed := BitVec 64

/-- An opcode, the type of CUR (10_state.md R39, 30_encoding.md R90). -/
abbrev Opcode := BitVec 8

/-- One byte as a little-endian bridge shows it (20_memory.md R68). -/
abbrev Byte := BitVec 8

end Sys2Proof
end

