-- ==== Sys2Proof/Syntax.lean ====
section
/-! DEFINITION. The commands of the NTE, one constructor per row of spec/opcode_table.json. A command has no operand
field: its operands are fixed registers (30_encoding.md R90, R92). -/

namespace Sys2Proof

/-- The nine commands (00_scope.md R2, 30_encoding.md R91). -/
inductive Instr where
  /-- Greatest common divisor of A and B (41_gcd.md R141). -/
  | gcd
  /-- Inverse of A modulo N (42_modinv.md R151). -/
  | modinv
  /-- A to the power B modulo N (43_powmod.md R166). -/
  | powmod
  /-- Miller-Rabin test of N (44_isprime.md R186). -/
  | isprime
  /-- Random probable prime of BITS bits (45_mkprime.md R203). -/
  | mkprime
  /-- A modulo N (40_arith_modred_mulmod.md R123). -/
  | modred
  /-- A times B modulo N (40_arith_modred_mulmod.md R124). -/
  | mulmod
  /-- Initialise Random State from SEED (46_rng_system.md R211). -/
  | rnginit
  /-- Tear down Random State (46_rng_system.md R213). -/
  | rngclear
  deriving DecidableEq, Repr

end Sys2Proof
end

