-- ==== Sys2Proof/Decode.lean ====
section
/-! DEFINITION. The command word CMD32 (30_encoding.md R90): the decoder, total on all 2^32 words, and after it the encoder. -/

namespace Sys2Proof

/-- Why a word is an illegal command (30_encoding.md R93). -/
inductive IllegalWord where
  /-- A bit of 31:8 (MBZ) is set. -/
  | mbzSet
  /-- OPC is none of the nine opcodes. -/
  | opcodeUnassigned
  deriving DecidableEq, Repr

/-- The opcode map (30_encoding.md R91). -/
def decodeOpcode (opc : Opcode) : Except IllegalWord Instr :=
  match opc.toNat with
  | 0x01 => .ok .gcd
  | 0x02 => .ok .modinv
  | 0x03 => .ok .powmod
  | 0x04 => .ok .isprime
  | 0x05 => .ok .mkprime
  | 0x06 => .ok .modred
  | 0x07 => .ok .mulmod
  | 0x10 => .ok .rnginit
  | 0x11 => .ok .rngclear
  | _ => .error .opcodeUnassigned

/-- OPC, bits 7:0 of a command word (30_encoding.md R90). -/
def opcField (v : Word) : Opcode := v.extractLsb' 0 8

/-- MBZ, bits 31:8 of a command word (30_encoding.md R90). -/
def mbzField (v : Word) : BitVec 24 := v.extractLsb' 8 24

/-- `decode(v)` of 30_encoding.md R91. -/
def decode (v : Word) : Except IllegalWord Instr :=
  if mbzField v = 0 then decodeOpcode (opcField v) else .error .mbzSet

/-- The opcode of a command (30_encoding.md R91). -/
def opcode : Instr → Opcode
  | .gcd => 0x01
  | .modinv => 0x02
  | .powmod => 0x03
  | .isprime => 0x04
  | .mkprime => 0x05
  | .modred => 0x06
  | .mulmod => 0x07
  | .rnginit => 0x10
  | .rngclear => 0x11

/-- The command word: MBZ zero above OPC (30_encoding.md R90). -/
def encode (i : Instr) : Word := (0 : BitVec 24) ++ opcode i

/-- The command the decoder reads from a word given as a table row's bits. A command is one 32-bit word, so a shorter row has
zeros above it and a longer number is no command word. -/
def decodeTableWord (nbits w : Nat) : Option Instr :=
  if w % 2 ^ nbits < 2 ^ 32 then (decode (BitVec.ofNat 32 (w % 2 ^ nbits))).toOption else none

end Sys2Proof
end

