-- ==== Sys2Proof/Config.lean ====
section
/-! DEFINITION. What an implementation of the NTE fixes: the operand width W (00_scope.md R5) and the generator Rng
(00_scope.md R13). Both are OPEN in the spec, so both are constants without a body: nothing can be proved of their values. -/

namespace Sys2Proof

/-- A state of the pseudo-random generator (RNG.S, 10_state.md R37). The spec leaves its type to the parameter Rng; it is
written here as the draws it is already known to deliver next, and a code for all that follows them. DESIGN CHOICE, safe (log 2):
every generator is one of this form with nothing queued, and a claim for every `queued` is a claim for every sequence of draws,
which 92_eei_decisions.md D17 allows a model to take as free inputs. -/
structure RngState where
  /-- Draws the generator delivers next, first to come first. -/
  queued : List Nat
  /-- What determines every draw after them. -/
  code : Nat
  deriving DecidableEq, Repr, Inhabited

/-- L - 1, a free value: L is the number of 32-bit limbs of an operand, 1 to 1024 (00_scope.md R5; log 1). DESIGN CHOICE, safe:
the spec leaves W open. -/
opaque Config.spareLimbs : Fin 1024

/-- L, the limbs of an operand (00_scope.md R5). -/
def Config.L : Nat := Config.spareLimbs.val + 1

/-- W, the operand width in bits, a multiple of 32 from 32 to 32768 (00_scope.md R5). -/
def Config.W : Nat := 32 * Config.L

/-- `RngInit`, from a seed to a generator state, a free value (00_scope.md R13; log 2). -/
opaque Config.rngInit : Seed → RngState

/-- The number from which a draw below a bound is taken once nothing is queued, a free value (00_scope.md R13; log 2). -/
opaque Config.rngValue : Nat → Nat → Nat

/-- The code of the generator state after such a draw, a free value (00_scope.md R13; log 2). -/
opaque Config.rngStep : Nat → Nat → Nat

end Sys2Proof
end

