-- ==== Sys2Proof/Machine/Bus.lean ====
section
/-! DEFINITION. The register window of 20_memory.md: the words it holds and their addresses, and the accesses a host makes. -/

namespace Sys2Proof.Machine

/-- The four operand banks (20_memory.md R65). -/
inductive Bank where
  /-- Operand A, at 0x1000. -/
  | a
  /-- Operand B, at 0x2000. -/
  | b
  /-- Operand N, at 0x3000. -/
  | n
  /-- Result R, at 0x4000, read-only to the host. -/
  | r
  deriving DecidableEq, Repr

/-- What stands at a word of the window (20_memory.md R65). -/
inductive Target where
  /-- CMD, 0x0000. -/
  | cmd
  /-- STATUS, 0x0004. -/
  | status
  /-- CTRL, 0x0008. -/
  | ctrl
  /-- ITERS, 0x000C. -/
  | iters
  /-- BITS, 0x0010. -/
  | bits
  /-- SEED_LO, 0x0014. -/
  | seedLo
  /-- SEED_HI, 0x0018. -/
  | seedHi
  /-- Limb `i` of a bank, `i` below L. -/
  | limb (k : Bank) (i : Nat)
  /-- A reserved word: reads 0, ignores writes (20_memory.md R71). -/
  | reserved
  deriving DecidableEq, Repr

/-- One item of the host's program (20_memory.md R63, R64; 30_encoding.md R97). An access names its address and its width in
bytes, so that an access the bus cannot carry can be written down and refused (20_memory.md R69). -/
inductive HostOp where
  /-- `MemRead(addr, width)`. -/
  | read (addr width : Nat)
  /-- `MemWrite(addr, width, v)`. -/
  | write (addr width : Nat) (v : Word)
  /-- `WAIT`: read STATUS again and again until BUSY is 0 (30_encoding.md R97). -/
  | wait
  /-- Wait for the interrupt line, without an access (70_reset_and_hazards.md R275 step 3). -/
  | waitIrq
  deriving DecidableEq, Repr

/-- Who takes a step of the total order (00_scope.md R14, 20_memory.md R73). -/
inductive Agent where
  /-- The host makes its next access. -/
  | host
  /-- The engine takes the step it owes, if it owes one. -/
  | engine
  /-- The reset input acts. -/
  | reset
  deriving DecidableEq, Repr

/-- The size of the window in bytes (20_memory.md R60). -/
abbrev windowBytes : Nat := 0x8000

/-- Where a bank begins (20_memory.md R65). -/
def bankBase : Bank → Nat
  | .a => 0x1000
  | .b => 0x2000
  | .n => 0x3000
  | .r => 0x4000

/-- The word at byte offset `off` of a bank: a limb below L, a reserved word from L on (20_memory.md R65). -/
def bankTarget (L : Nat) (k : Bank) (off : Nat) : Target :=
  if off / 4 < L then .limb k (off / 4) else .reserved

/-- The register map of 20_memory.md R65 for an instance of `L` limbs. -/
def decodeAddr (L addr : Nat) : Target :=
  if addr = 0x0000 then .cmd
  else if addr = 0x0004 then .status
  else if addr = 0x0008 then .ctrl
  else if addr = 0x000C then .iters
  else if addr = 0x0010 then .bits
  else if addr = 0x0014 then .seedLo
  else if addr = 0x0018 then .seedHi
  else if addr < 0x1000 then .reserved
  else if addr < 0x2000 then bankTarget L .a (addr - 0x1000)
  else if addr < 0x3000 then bankTarget L .b (addr - 0x2000)
  else if addr < 0x4000 then bankTarget L .n (addr - 0x3000)
  else if addr < 0x5000 then bankTarget L .r (addr - 0x4000)
  else .reserved

end Sys2Proof.Machine
end

