-- ==== Sys2Proof/Machine/State.lean ====
section
/-! DEFINITION. The state of the NTE as 10_state.md R41 lists it, the environment that drives it (the host's script and the order
of steps), the ways a step can stop, and the state after reset. -/

namespace Sys2Proof.Machine

/-- The error codes of 60_exceptions.md R244; the reserved codes 5 to 15 are never held, so they have no constructor. -/
inductive ErrCode where
  /-- 0, no error. -/
  | none
  /-- 1, the word is not one of the nine command words. -/
  | illcmd
  /-- 2, N = 0 at the launch of MODRED, MULMOD, MODINV or POWMOD. -/
  | modzero
  /-- 3, ITERS = 0 at the launch of ISPRIME or MKPRIME, or BITS > W at the launch of MKPRIME. -/
  | param
  /-- 4, Random State used outside its lifecycle. -/
  | rngstate
  deriving DecidableEq, Repr

/-- How the model stops where the spec says the machine cannot be. No instruction faults in a state a run reaches. -/
inductive Fault where
  /-- Raised by the engine's turn when BUSY = 1 and CUR is none of the nine opcodes. Safe: no launch produces it (30_encoding.md
  R94), and `State.Inv` excludes it (log 10). -/
  | curNotACommand
  /-- Raised by the completion of a command whose launch check, of that code, does not hold any more. Safe: the operands are
  constant from launch to completion (20_memory.md R67), so `State.Inv` excludes it (log 10). -/
  | launchCheckBroken (code : ErrCode)
  deriving DecidableEq, Repr

/-- What the model refuses, because the spec puts it outside the modelled interface. -/
inductive Refusal where
  /-- An arm of `exec` whose instruction has no meaning yet. Safe. No arm uses it. -/
  | notModelled (mnemonic : String)
  /-- Raised by the host's turn for an access that is not 32 bits wide (20_memory.md R69, 93_implementation_defined.md U19). Safe. -/
  | accessWidth
  /-- Raised by the host's turn for an address that is not a multiple of 4 (20_memory.md R69, U19). Safe. -/
  | accessMisaligned
  /-- Raised by the host's turn for an address outside the window (20_memory.md R60, U19). Safe. -/
  | accessOutsideWindow
  deriving DecidableEq, Repr

/-- The state: the tuple of 10_state.md R41, the one piece of hidden working state kept, and the environment. -/
structure State where
  /-- A, below 2^W (10_state.md R20). -/
  regA : Nat
  /-- B, below 2^W (10_state.md R20). -/
  regB : Nat
  /-- N, below 2^W (10_state.md R20). -/
  regN : Nat
  /-- R, below 2^W (10_state.md R20, R23). -/
  regR : Nat
  /-- ITERS (10_state.md R33). -/
  iters : Word
  /-- BITS (10_state.md R34). -/
  bits : Word
  /-- SEED (10_state.md R35). -/
  seed : Seed
  /-- CTRL.IE (10_state.md R32). -/
  ie : Bool
  /-- STATUS.BUSY, the phase (10_state.md R27, R36). -/
  busy : Bool
  /-- STATUS.DONE (10_state.md R28). -/
  done : Bool
  /-- STATUS.ERR (10_state.md R29). -/
  err : Bool
  /-- STATUS.ERRCODE (10_state.md R29). -/
  errcode : ErrCode
  /-- STATUS.NOINV (10_state.md R30). -/
  noinv : Bool
  /-- STATUS.PRIME (10_state.md R30). -/
  prime : Bool
  /-- STATUS.OVR (10_state.md R31). -/
  ovr : Bool
  /-- STATUS.RNGRDY (10_state.md R31). -/
  rngrdy : Bool
  /-- CUR, meaningful only while BUSY (10_state.md R39). -/
  cur : Opcode
  /-- RNG.S, meaningful only while RNGRDY (10_state.md R37). -/
  rng : RngState
  /-- Hidden working state of a MKPRIME in flight: where the generator stands after the candidates tried so far, `none` before
  the first (10_state.md R39, 45_mkprime.md R202; log 5). -/
  search : Option RngState
  /-- The host's items still to come (log 7). -/
  script : List HostOp
  /-- The words the host has read, newest first (log 7). -/
  reads : List Word
  /-- Who moves next, first to move first (20_memory.md R73; log 6). -/
  turns : List Agent
  deriving DecidableEq, Repr

/-- The state after reset (10_state.md R40). `cur` and `rng` are unspecified there: their values are named in log 4 and log 3. -/
def State.reset : State where
  regA := 0
  regB := 0
  regN := 0
  regR := 0
  iters := 0
  bits := 0
  seed := 0
  ie := false
  busy := false
  done := false
  err := false
  errcode := .none
  noinv := false
  prime := false
  ovr := false
  rngrdy := false
  cur := 0
  rng := { queued := [], code := 0 }
  search := none
  script := []
  reads := []
  turns := []

end Sys2Proof.Machine
end

