-- ==== Sys2Proof/Machine/Flags.lean ====
section
/-! DEFINITION. STATUS and CTRL as words (10_state.md R26, R32), the write-one-to-clear bits, and the interrupt output. -/

namespace Sys2Proof.Machine

/-- The value of ERRCODE (60_exceptions.md R244). -/
def ErrCode.toNat : ErrCode → Nat
  | .none => 0
  | .illcmd => 1
  | .modzero => 2
  | .param => 3
  | .rngstate => 4

/-- A flag as the word that holds it at bit `k` and zeros elsewhere. -/
def flagAt (k : Nat) (f : Bool) : Nat := if f then 2 ^ k else 0

/-- The word a read of STATUS returns; reserved bits read 0 (10_state.md R26). -/
def statusWord (s : State) : Word :=
  BitVec.ofNat 32
    (flagAt 0 s.busy + flagAt 1 s.done + flagAt 2 s.err + flagAt 3 s.noinv + flagAt 4 s.prime + flagAt 5 s.ovr
      + flagAt 6 s.rngrdy + 2 ^ 8 * s.errcode.toNat)

/-- The word a read of CTRL returns (10_state.md R32). -/
def ctrlWord (s : State) : Word := BitVec.ofNat 32 (flagAt 0 s.ie)

/-- A host write to STATUS: bit 1 clears DONE, bit 5 clears OVR, nothing else (10_state.md R26, 20_memory.md R64 line 1). -/
def writeStatus (v : Word) (s : State) : State :=
  { s with
    done := if v.getLsbD 1 then false else s.done
    ovr := if v.getLsbD 5 then false else s.ovr }

/-- A host write to CTRL: bit 0 is IE, the rest is ignored (10_state.md R32). -/
def writeCtrl (v : Word) (s : State) : State := { s with ie := v.getLsbD 0 }

/-- A write dropped because the engine is busy (20_memory.md R67, 10_state.md R31). -/
def dropWrite (s : State) : State := { s with ovr := true }

/-- The interrupt output (60_exceptions.md R250). -/
def irq (s : State) : Bool := s.ie && s.done

end Sys2Proof.Machine
end

