-- ==== Sys2Proof/Machine/Operands.lean ====
section
/-! DEFINITION. The operand registers seen by limbs (20_memory.md R66): the natural number in a register is the sum of
`limb i * 2^(32 i)`. -/

namespace Sys2Proof.Machine

/-- `X[32*i+31 : 32*i]` of the number `x` (20_memory.md R63, R66). -/
def limb (x i : Nat) : Word := BitVec.ofNat 32 (x / 2 ^ (32 * i))

/-- `x` with `v` in bits 32*i+31 to 32*i and every other bit kept (20_memory.md R64 line 7). -/
def setLimb (x i : Nat) (v : Word) : Nat :=
  x % 2 ^ (32 * i) + v.toNat * 2 ^ (32 * i) + x / 2 ^ (32 * (i + 1)) * 2 ^ (32 * (i + 1))

/-- The register of a bank (10_state.md R20). -/
def readBank (k : Bank) (s : State) : Nat :=
  match k with
  | .a => s.regA
  | .b => s.regB
  | .n => s.regN
  | .r => s.regR

/-- A host write of one limb. A write to R is ignored (10_state.md R23, 20_memory.md R64 line 2). -/
def writeLimb (k : Bank) (i : Nat) (v : Word) (s : State) : State :=
  match k with
  | .a => { s with regA := setLimb s.regA i v }
  | .b => { s with regB := setLimb s.regB i v }
  | .n => { s with regN := setLimb s.regN i v }
  | .r => s

/-- SEED with a new low word (20_memory.md R64 line 6). -/
def writeSeedLo (v : Word) (s : State) : State := { s with seed := s.seed.extractLsb' 32 32 ++ v }

/-- SEED with a new high word (20_memory.md R64 line 6). -/
def writeSeedHi (v : Word) (s : State) : State := { s with seed := v ++ s.seed.extractLsb' 0 32 }

end Sys2Proof.Machine
end

