-- ==== Sys2Proof/Machine/Ops.lean ====
section
/-! DEFINITION. The operations the commands and the host share: register reads and writes (20_memory.md R63, R64), the random
primitives (00_scope.md R13), the launch with its checks (30_encoding.md R94, R95), error completion, which is the NTE's exception
entry (60_exceptions.md R243), and completion (60_exceptions.md R242). The NTE has no return from exception (60_exceptions.md R248):
the next launch clears an error. -/

namespace Sys2Proof.Machine

/-- The word a read of a target returns (20_memory.md R63). -/
def readTarget (t : Target) (s : State) : Word :=
  match t with
  | .cmd => 0
  | .status => statusWord s
  | .ctrl => ctrlWord s
  | .iters => s.iters
  | .bits => s.bits
  | .seedLo => s.seed.extractLsb' 0 32
  | .seedHi => s.seed.extractLsb' 32 32
  | .limb k i => limb (readBank k s) i
  | .reserved => 0

/-- `MemRead(addr, 4)` in an NTE of `L` limbs (20_memory.md R63). -/
def memRead (L addr : Nat) (s : State) : Word := readTarget (decodeAddr L addr) s

/-- The byte at `addr` as a platform's little-endian bridge shows it (20_memory.md R68). -/
def readByte (L addr : Nat) (s : State) : Byte :=
  (memRead L (addr / 4 * 4) s).extractLsb' (8 * (addr % 4)) 8

/-- A host write that the engine does not own and that starts no command: 20_memory.md R64 lines 5 to 7, and the words whose
write changes nothing. -/
def writeTarget (t : Target) (v : Word) (s : State) : State :=
  match t with
  | .cmd => s
  | .status => writeStatus v s
  | .ctrl => writeCtrl v s
  | .iters => { s with iters := v }
  | .bits => { s with bits := v }
  | .seedLo => writeSeedLo v s
  | .seedHi => writeSeedHi v s
  | .limb k i => writeLimb k i v s
  | .reserved => s

/-- `RngNext(S, m)`, `m >= 1`, in the order value, next state; the value is below `m` (00_scope.md R13; log 2). -/
def rngNext (S : RngState) (m : Nat) : Nat × RngState :=
  match S.queued with
  | d :: ds => (d % m, { S with queued := ds })
  | [] => (Config.rngValue S.code m % m, { queued := [], code := Config.rngStep S.code m })

/-- `RandBits(b)` (00_scope.md R13). -/
def randBits (S : RngState) (b : Nat) : Nat × RngState := rngNext S (2 ^ b)

/-- The first lines of a launch: the last command's outcome is forgotten and R is cleared (30_encoding.md R94). -/
def clearForLaunch (s : State) : State :=
  { s with done := false, err := false, errcode := .none, noinv := false, prime := false, regR := 0 }

/-- `raise Error(code)`, the error completion (60_exceptions.md R243). -/
def raiseError (code : ErrCode) (s : State) : State :=
  { s with err := true, errcode := code, done := true }

/-- The end of a launch that passed its checks (30_encoding.md R94). -/
def startCommand (i : Instr) (s : State) : State :=
  { s with cur := opcode i, busy := true, search := none }

/-- `LaunchCheck` for a legal command in an NTE of width `W`: the lowest code whose condition holds (30_encoding.md R95,
60_exceptions.md R246). -/
def launchCheck (W : Nat) (i : Instr) (s : State) : ErrCode :=
  match i with
  | .gcd => .none
  | .modinv | .powmod | .modred | .mulmod => if s.regN = 0 then .modzero else .none
  | .isprime => if s.iters.toNat = 0 then .param else if s.rngrdy then .none else .rngstate
  | .mkprime => if s.iters.toNat = 0 ∨ W < s.bits.toNat then .param else if s.rngrdy then .none else .rngstate
  | .rnginit => if s.rngrdy then .rngstate else .none
  | .rngclear => if s.rngrdy then .none else .rngstate

/-- `Launch` of a legal command whose check gave `code` (30_encoding.md R94). -/
def launch (i : Instr) (code : ErrCode) (s : State) : State :=
  if code = .none then startCommand i (clearForLaunch s) else raiseError code (clearForLaunch s)

/-- `Launch` of an illegal word (30_encoding.md R93, R94). -/
def launchIllegal (s : State) : State := raiseError .illcmd (clearForLaunch s)

/-- The last lines of a completion (60_exceptions.md R242); the hidden working state does not survive it (10_state.md R39). CUR keeps
the opcode of the command that ended: DESIGN CHOICE (log 23), since 93_implementation_defined.md U23 gives it any value in IDLE. -/
def complete (s : State) : State := { s with busy := false, done := true, search := none }

/-- One command in both its moments: its launch while BUSY = 0 (30_encoding.md R94), the engine's step `work` while BUSY = 1
(60_exceptions.md R242). The step is taken only where the launch check still holds, which is every state a run reaches
(20_memory.md R67; log 10, log 20). -/
def runCommand (i : Instr) (work : State → State) (s : State) : Host.Outcome State Fault Refusal :=
  if s.busy then
    match launchCheck Config.W i s with
    | .none => .next (work s)
    | code => .fault (.launchCheckBroken code)
  else .next (launch i (launchCheck Config.W i s) s)

end Sys2Proof.Machine
end

