-- ==== Sys2Proof/Machine/Euclid.lean ====
section
/-! DEFINITION. The Euclidean commands: GCD (41_gcd.md) and MODINV (42_modinv.md). -/

namespace Sys2Proof.Machine

/-- The loop of 41_gcd.md R140 with at most `fuel` passes. -/
def gcdLoop : (fuel a b : Nat) → Nat
  | 0, a, _ => a
  | fuel + 1, a, b => if b = 0 then a else gcdLoop fuel b (a % b)

/-- `Gcd(a, b)` (41_gcd.md R140). The second number decreases at every pass, so `b` passes are enough. -/
def gcdEuclid (a b : Nat) : Nat := gcdLoop b a b

/-- The loop of 42_modinv.md R154 with at most `fuel` passes, on the remainder pair and the signed coefficient pair; the answer
is the last remainder and its coefficient. -/
def bezoutLoop : (fuel r r' : Nat) → (t t' : Int) → Nat × Int
  | 0, r, _, t, _ => (r, t)
  | fuel + 1, r, r', t, t' =>
    if r' = 0 then (r, t) else bezoutLoop fuel r' (r % r') t' (t - (r / r' : Nat) * t')

/-- `ModInv(a, n)`, `n >= 1`: the inverse, or 0 with `true` for "no inverse" (42_modinv.md R150), by the procedure of R154, whose
coefficient is brought into [0, n) by its residue: that is R154's one addition of `n` for a negative coefficient, and it also
gives R150's 0 for `a = n = 1`, where R154 read step for step would leave 1 (log 14). The second remainder is `a` at the start
and decreases at every pass, so `a` passes are enough. -/
def modInv (a n : Nat) : Nat × Bool :=
  let (r, t) := bezoutLoop a n a 0 1
  if 1 < r then (0, true) else ((t % (n : Int)).toNat, false)

/-- GCD (41_gcd.md R141). -/
def execGcd (s : State) : Host.Outcome State Fault Refusal :=
  runCommand .gcd (fun s => complete { s with regR := gcdEuclid s.regA s.regB }) s

/-- MODINV (42_modinv.md R151, R152). -/
def execModinv (s : State) : Host.Outcome State Fault Refusal :=
  runCommand .modinv
    (fun s => complete { s with regR := (modInv s.regA s.regN).1, noinv := (modInv s.regA s.regN).2 }) s

end Sys2Proof.Machine
end

