-- ==== Sys2Proof/Machine/Power.lean ====
section
/-! DEFINITION. The exponentiation engine: POWMOD (43_powmod.md). -/

namespace Sys2Proof.Machine

/-- The loop of 43_powmod.md R167 with at most `fuel` passes: accumulator `v`, running square `p`, remaining exponent `d`. -/
def powLoop (m : Nat) : (fuel v p d : Nat) → Nat
  | 0, v, _, _ => v
  | fuel + 1, v, p, d =>
    if d = 0 then v else powLoop m fuel (if d % 2 = 1 then v * p % m else v) (p * p % m) (d / 2)

/-- `PowMod(b, d, m)`, `m >= 1`: `b ^ d` modulo `m` (43_powmod.md R165), by right-to-left square-and-multiply (R167; log 14).
The exponent decreases at every pass, so `d` passes are enough. -/
def powMod (b d m : Nat) : Nat := powLoop m d (1 % m) (b % m) d

/-- POWMOD (43_powmod.md R166). -/
def execPowmod (s : State) : Host.Outcome State Fault Refusal :=
  runCommand .powmod (fun s => complete { s with regR := powMod s.regA s.regB s.regN }) s

end Sys2Proof.Machine
end

