-- ==== Sys2Proof/Machine/Prime.lean ====
section
/-! DEFINITION. The Miller-Rabin test ISPRIME (44_isprime.md) and random prime generation MKPRIME (45_mkprime.md). -/

namespace Sys2Proof.Machine

/-- The loop of 44_isprime.md R182 with at most `fuel` passes. -/
def decomposeLoop : (fuel s r : Nat) → Nat × Nat
  | 0, s, r => (s, r)
  | fuel + 1, s, r => if r % 2 = 0 then decomposeLoop fuel (s + 1) (r / 2) else (s, r)

/-- `Decompose(n)`, `n >= 5`: the pair `(s, r)` with `n - 1 = 2^s * r` and `r` odd (44_isprime.md R182). -/
def decompose (n : Nat) : Nat × Nat := decomposeLoop (n - 1) 0 (n - 1)

/-- At most `k` squarings of `y` modulo `n`, stopping at `n - 1` (44_isprime.md R185). -/
def squareUntil (n : Nat) : (k y : Nat) → Nat
  | 0, y => y
  | k + 1, y => if y = n - 1 then y else squareUntil n k (y * y % n)

/-- `Round(n, s, r, a)`, `true` for pass (44_isprime.md R185). `s - 1` is 0 for `s = 0`, so there is then no squaring (R187). -/
def roundPasses (n s r a : Nat) : Bool :=
  let y := powMod a r n
  if y = 1 ∨ y = n - 1 then true else squareUntil n (s - 1) y == n - 1

/-- `k` rounds, each drawing one base in [2, n - 2], up to the first that declares composite (44_isprime.md R184, R186, R190). -/
def primeRounds (n s r : Nat) : (k : Nat) → RngState → Bool × RngState
  | 0, S => (true, S)
  | k + 1, S =>
    let (v, S') := rngNext S (n - 3)
    if roundPasses n s r (2 + v) then primeRounds n s r k S' else (false, S')

/-- `IsPrime(n, iters)`, `iters >= 1`, and the generator state it leaves (44_isprime.md R181, R183, R186). -/
def isPrime (n iters : Nat) (S : RngState) : Bool × RngState :=
  if n ≤ 1 ∨ n = 4 then (false, S)
  else if n = 2 ∨ n = 3 then (true, S)
  else primeRounds n (decompose n).1 (decompose n).2 (iters - 1) S

/-- ISPRIME (44_isprime.md R186). -/
def execIsprime (s : State) : Host.Outcome State Fault Refusal :=
  runCommand .isprime
    (fun s =>
      let (verdict, S) := isPrime s.regN s.iters.toNat s.rng
      complete { s with regR := if verdict then 1 else 0, prime := verdict, rng := S }) s

/-- The number of binary digits (00_scope.md R10). -/
def bitLength (x : Nat) : Nat := if x = 0 then 0 else Nat.log2 x + 1

/-- One candidate of the loop of 45_mkprime.md R202, and the generator state after it; the length test comes first. -/
def tryCandidate (bits iters : Nat) (S : RngState) : Option Nat × RngState :=
  let (c, S') := randBits S bits
  if bitLength c = bits then
    let (verdict, S'') := isPrime c iters S'
    (if verdict then some c else none, S'')
  else (none, S')

/-- MKPRIME (45_mkprime.md R203): each turn of the engine tries one candidate. A candidate that qualifies completes the command;
otherwise only the hidden working state moves on, so a search may go on without end (45_mkprime.md R205; log 5). -/
def execMkprime (s : State) : Host.Outcome State Fault Refusal :=
  runCommand .mkprime
    (fun s =>
      match tryCandidate s.bits.toNat s.iters.toNat (s.search.getD s.rng) with
      | (some c, S) => complete { s with regR := c, rng := S }
      | (none, S) => { s with search := some S }) s

end Sys2Proof.Machine
end

