-- ==== Sys2Proof/Machine/Random.lean ====
section
/-! DEFINITION. The lifecycle of Random State (46_rng_system.md): RNGINIT and RNGCLEAR. -/

namespace Sys2Proof.Machine

/-- RNGINIT (46_rng_system.md R211). -/
def execRnginit (s : State) : Host.Outcome State Fault Refusal :=
  runCommand .rnginit (fun s => complete { s with rng := Config.rngInit s.seed, rngrdy := true, regR := 0 }) s

/-- RNGCLEAR (46_rng_system.md R213). RNG.S becomes unspecified and unread; it is left as it is (log 12). -/
def execRngclear (s : State) : Host.Outcome State Fault Refusal :=
  runCommand .rngclear (fun s => complete { s with rngrdy := false, regR := 0 }) s

end Sys2Proof.Machine
end

