-- ==== Sys2Proof/Machine/Reduce.lean ====
section
/-! DEFINITION. The reduction unit (40_arith_modred_mulmod.md): MODRED and MULMOD. `Mod(x, m)` is `x % m` on natural numbers, the
least residue (R120); products are exact (R122). -/

namespace Sys2Proof.Machine

/-- MODRED (40_arith_modred_mulmod.md R123). -/
def execModred (s : State) : Host.Outcome State Fault Refusal :=
  runCommand .modred (fun s => complete { s with regR := s.regA % s.regN }) s

/-- MULMOD (40_arith_modred_mulmod.md R124). -/
def execMulmod (s : State) : Host.Outcome State Fault Refusal :=
  runCommand .mulmod (fun s => complete { s with regR := s.regA * s.regB % s.regN }) s

end Sys2Proof.Machine
end

