-- ==== Sys2Proof/Machine/Dispatch.lean ====
section
/-! DEFINITION. One arm per command. -/

namespace Sys2Proof.Machine

/-- A command: its launch while BUSY = 0, its completion while BUSY = 1. -/
def exec (i : Instr) (s : State) : Host.Outcome State Fault Refusal :=
  match i with
  | .gcd => Sys2Proof.Machine.execGcd s
  | .modinv => Sys2Proof.Machine.execModinv s
  | .powmod => Sys2Proof.Machine.execPowmod s
  | .isprime => Sys2Proof.Machine.execIsprime s
  | .mkprime => Sys2Proof.Machine.execMkprime s
  | .modred => Sys2Proof.Machine.execModred s
  | .mulmod => Sys2Proof.Machine.execMulmod s
  | .rnginit => Sys2Proof.Machine.execRnginit s
  | .rngclear => Sys2Proof.Machine.execRngclear s

end Sys2Proof.Machine
end

