-- ==== Sys2Proof/WellFormed.lean ====
section
/-! DEFINITION. What is well formed: every command (it has no field), and a host access that is one aligned 32-bit word of the
window (20_memory.md R69). -/

namespace Sys2Proof

/-- A command has no register, immediate, mode or condition field, so there is nothing in it to check (30_encoding.md R90, R92). -/
def Instr.wellFormed : Instr → Bool
  | .gcd | .modinv | .powmod | .isprime | .mkprime | .modred | .mulmod | .rnginit | .rngclear => true

/-- The access moves one whole 32-bit word (20_memory.md R69, R70). -/
def accessWidthOk (width : Nat) : Bool := width == 4

/-- The access is at a multiple of 4 (20_memory.md R69). -/
def accessAligned (addr : Nat) : Bool := addr % 4 == 0

/-- The access lies in the window (20_memory.md R60). -/
def accessInWindow (addr : Nat) : Bool := addr < Machine.windowBytes

/-- An access the register bus can carry (20_memory.md R69). -/
def accessOk (addr width : Nat) : Bool :=
  accessWidthOk width && accessAligned addr && accessInWindow addr

/-- A host item whose access, if it makes one of its own, the bus can carry. -/
def Machine.HostOp.wellFormed : Machine.HostOp → Bool
  | .read addr width => accessOk addr width
  | .write addr width _ => accessOk addr width
  | .wait => true
  | .waitIrq => true

end Sys2Proof
end

