-- ==== Sys2Proof/Machine/Turn.lean ====
section
/-! DEFINITION. The steps of the two agents and of reset (20_memory.md R73), and who takes the next one. -/

namespace Sys2Proof.Machine

/-- A write to CMD with BUSY = 0 (30_encoding.md R94): a legal word runs its command's launch, an illegal one ends with ILLCMD. -/
def writeCmd (v : Word) (s : State) : Host.Outcome State Fault Refusal :=
  match decode v with
  | .ok i => exec i s
  | .error _ => .next (launchIllegal s)

/-- `MemWrite(addr, 4, v)` in an NTE of `L` limbs, by the first matching line (20_memory.md R64). -/
def memWrite (L addr : Nat) (v : Word) (s : State) : Host.Outcome State Fault Refusal :=
  match decodeAddr L addr with
  | .status => .next (writeStatus v s)
  | .reserved => .next s
  | .limb .r _ => .next s
  | .cmd => if s.busy then .next (dropWrite s) else writeCmd v s
  | t => .next (if s.busy then dropWrite s else writeTarget t v s)

/-- The refusal of an access the bus cannot carry, if it is one (20_memory.md R69; log 11). -/
def accessRefusal (addr width : Nat) : Option Refusal :=
  if accessWidthOk width = false then some .accessWidth
  else if accessAligned addr = false then some .accessMisaligned
  else if accessInWindow addr = false then some .accessOutsideWindow
  else none

/-- The host reads the word `v`. -/
def recordRead (v : Word) (s : State) : State := { s with reads := v :: s.reads }

/-- The host's turn: its next item (20_memory.md R63, R64; 30_encoding.md R97), or nothing if it has none. -/
def hostTurn (L : Nat) (s : State) : Host.Outcome State Fault Refusal :=
  match s.script with
  | [] => .next s
  | .read addr width :: rest =>
    match accessRefusal addr width with
    | some e => .refused e
    | none => .next (recordRead (memRead L addr s) { s with script := rest })
  | .write addr width v :: rest =>
    match accessRefusal addr width with
    | some e => .refused e
    | none => memWrite L addr v { s with script := rest }
  | .wait :: rest =>
    .next (recordRead (memRead L 0x0004 s) (if (memRead L 0x0004 s).getLsbD 0 then s else { s with script := rest }))
  | .waitIrq :: rest => .next (if irq s then { s with script := rest } else s)

/-- The engine's turn: with BUSY = 1 the step it owes to the command CUR, with BUSY = 0 nothing (60_exceptions.md R241). -/
def engineTurn (s : State) : Host.Outcome State Fault Refusal :=
  if s.busy then
    match decodeOpcode s.cur with
    | .ok i => exec i s
    | .error _ => .fault .curNotACommand
  else .next s

/-- The reset input acts (70_reset_and_hazards.md R270); the host and the order of steps are outside the NTE (log 7). -/
def resetTurn (s : State) : State :=
  { State.reset with script := s.script, reads := s.reads, turns := s.turns }

/-- Who moves next: the first of `turns`; when none is listed, the engine while it owes a step, else the host (log 6). -/
def nextAgent (s : State) : Agent :=
  match s.turns with
  | t :: _ => t
  | [] => if s.busy then .engine else .host

/-- The order of steps with its first entry used up. -/
def popTurn (s : State) : State := { s with turns := s.turns.tail }

/-- One step of the total order (20_memory.md R73) in an NTE of `L` limbs. -/
def takeTurn (L : Nat) (s : State) : Host.Outcome State Fault Refusal :=
  match nextAgent s with
  | .host => hostTurn L (popTurn s)
  | .engine => engineTurn (popTurn s)
  | .reset => .next (resetTurn (popTurn s))

/-- `s` in IDLE with the host's next item a write of `v` to CMD and the next turn the host's (log 8). -/
def placeCommand (v : Word) (s : State) : State :=
  { s with busy := false, script := .write 0x0000 4 v :: s.script, turns := .host :: s.turns }

end Sys2Proof.Machine
end

