-- ==== Sys2Proof/Machine/Step.lean ====
section
/-! DEFINITION. The machine's step, and how one command is placed where the next step runs it. -/

namespace Sys2Proof.Machine

/-- One step of the NTE and its environment (20_memory.md R73). -/
def step (s : State) : Host.Outcome State Fault Refusal := takeTurn Config.L s

/-- `s` with the command word of a table row where the next step runs it: the NTE fetches nothing, the host writes the word to CMD
(10_state.md R36; log 8). -/
def State.withFetchWord (s : State) (nbits w : Nat) : State := placeCommand (BitVec.ofNat 32 (w % 2 ^ nbits)) s

end Sys2Proof.Machine
end

