-- ==== Sys2Proof/Machine/Script.lean ====
section
/-! DEFINITION. The host notation of 30_encoding.md R97: each line is the list of host items it stands for. `EXPECT` makes no
access, so it has none. -/

namespace Sys2Proof.Machine

/-- `WR X, v` in an NTE of `L` limbs: all limbs, low limb first. -/
def hostWr (L : Nat) (k : Bank) (v : Nat) : List HostOp :=
  (List.range L).map fun i => .write (bankBase k + 4 * i) 4 (limb v i)

/-- `WR ITERS, v`. -/
def hostWrIters (v : Word) : List HostOp := [.write 0x000C 4 v]

/-- `WR BITS, v`. -/
def hostWrBits (v : Word) : List HostOp := [.write 0x0010 4 v]

/-- `WR CTRL, v`. -/
def hostWrCtrl (v : Word) : List HostOp := [.write 0x0008 4 v]

/-- `WR SEED, v`: the low word, then the high word. -/
def hostWrSeed (v : Seed) : List HostOp :=
  [.write 0x0014 4 (v.extractLsb' 0 32), .write 0x0018 4 (v.extractLsb' 32 32)]

/-- `CMD m`. -/
def hostCmd (i : Instr) : List HostOp := [.write 0x0000 4 (encode i)]

/-- `CMDW v`. -/
def hostCmdw (v : Word) : List HostOp := [.write 0x0000 4 v]

/-- `WAIT`. -/
def hostWait : List HostOp := [.wait]

/-- `ACK`. -/
def hostAck : List HostOp := [.write 0x0004 4 0x00000002]

/-- `CLROVR`. -/
def hostClrovr : List HostOp := [.write 0x0004 4 0x00000020]

/-- `RD X` in an NTE of `L` limbs: all limbs, low limb first. -/
def hostRd (L : Nat) (k : Bank) : List HostOp :=
  (List.range L).map fun i => .read (bankBase k + 4 * i) 4

/-- `RD STATUS`. -/
def hostRdStatus : List HostOp := [.read 0x0004 4]

/-- The value of an `RD X` from the words it read, the last one (the highest limb) first. -/
def limbsValue (ws : List Word) : Nat := ws.foldl (fun x w => x * 2 ^ 32 + w.toNat) 0

/-- The value of an `RD X` that the host has just made. -/
def lastRd (L : Nat) (s : State) : Nat := limbsValue (s.reads.take L)

end Sys2Proof.Machine
end

