-- ==== Sys2Proof/Machine/Rsa.lean ====
section
/-! DEFINITION. The RSA macros (30_encoding.md R98, 47_rsa_macros.md), each a host script over one command, and what the host
makes of the words it read. -/

namespace Sys2Proof.Machine

/-- `ENCRYPT m, e, n` (47_rsa_macros.md R220). -/
def rsaEncrypt (L m e n : Nat) : List HostOp :=
  hostWr L .a m ++ hostWr L .b e ++ hostWr L .n n ++ hostCmd .powmod ++ hostWait ++ hostRd L .r

/-- `DECRYPT c, d, n` (47_rsa_macros.md R221). -/
def rsaDecrypt (L c d n : Nat) : List HostOp :=
  hostWr L .a c ++ hostWr L .b d ++ hostWr L .n n ++ hostCmd .powmod ++ hostWait ++ hostRd L .r

/-- `SIGN m, d, n` (47_rsa_macros.md R222). -/
def rsaSign (L m d n : Nat) : List HostOp :=
  hostWr L .a m ++ hostWr L .b d ++ hostWr L .n n ++ hostCmd .powmod ++ hostWait ++ hostRd L .r

/-- `VERIFY m, s, e, n`, without the host's comparison with `m` (47_rsa_macros.md R223). -/
def rsaVerify (L sig e n : Nat) : List HostOp :=
  hostWr L .a sig ++ hostWr L .b e ++ hostWr L .n n ++ hostCmd .powmod ++ hostWait ++ hostRd L .r

/-- The boolean (R = m) the host forms at the end of `VERIFY` (47_rsa_macros.md R223). It does not look at ERR, so a VERIFY with
n = 0, which ends in MODZERO with R = 0, is true of m = 0: DESIGN CHOICE (log 24), since the rule's two sentences differ there. -/
def rsaVerifyVerdict (L m : Nat) (s : State) : Bool := lastRd L s == m

/-- The totient the host computes for `PRIVKEY`; `p` and `q` are primes, so neither is 0 (47_rsa_macros.md R224). -/
def rsaTotient (p q : Nat) : Nat := (p - 1) * (q - 1)

/-- `PRIVKEY e, p, q` (47_rsa_macros.md R224). -/
def rsaPrivkey (L e p q : Nat) : List HostOp :=
  hostWr L .a e ++ hostWr L .n (rsaTotient p q) ++ hostCmd .modinv ++ hostWait ++ hostRd L .r

/-- The private exponent at the end of `PRIVKEY`, if the status of the command, the word read before the limbs of R, shows
neither ERR nor NOINV (47_rsa_macros.md R224). -/
def rsaPrivkeyResult (L : Nat) (s : State) : Option Nat :=
  match s.reads[L]? with
  | none => none
  | some status => if status.getLsbD 2 || status.getLsbD 3 then none else some (lastRd L s)

/-- `COPRIME x, y`, without the host's comparison (47_rsa_macros.md R226). -/
def rsaCoprime (L x y : Nat) : List HostOp :=
  hostWr L .a x ++ hostWr L .b y ++ hostCmd .gcd ++ hostWait ++ hostRd L .r

/-- The boolean the host forms at the end of `COPRIME` (47_rsa_macros.md R226). -/
def rsaCoprimeVerdict (L : Nat) (s : State) : Bool := lastRd L s == 1

end Sys2Proof.Machine
end

