-- ==== Sys2Proof/Safety.lean ====
section
/-! DEFINITION. The invariants of the state (10_state.md R41) and of a command in flight, in the terms the claims use. -/

namespace Sys2Proof.Machine

/-- What holds in every state a run from reset reaches. -/
structure State.Inv (s : State) : Prop where
  /-- A < 2^W (10_state.md R41). -/
  regA_lt : s.regA < 2 ^ Config.W
  /-- B < 2^W (10_state.md R41). -/
  regB_lt : s.regB < 2 ^ Config.W
  /-- N < 2^W (10_state.md R41). -/
  regN_lt : s.regN < 2 ^ Config.W
  /-- R < 2^W (10_state.md R41, 40_arith_modred_mulmod.md R127). -/
  regR_lt : s.regR < 2 ^ Config.W
  /-- not (BUSY and DONE). -/
  busy_not_done : s.busy = true → s.done = false
  /-- ERR = (ERRCODE != 0). -/
  err_iff : s.err = true ↔ s.errcode ≠ .none
  /-- ERR implies not BUSY. -/
  err_idle : s.err = true → s.busy = false
  /-- NOINV implies R = 0. -/
  noinv_zero : s.noinv = true → s.regR = 0
  /-- PRIME implies R = 1. -/
  prime_one : s.prime = true → s.regR = 1
  /-- BUSY implies R = 0, ERR = 0, NOINV = 0, PRIME = 0. -/
  busy_clear : s.busy = true → s.regR = 0 ∧ s.err = false ∧ s.noinv = false ∧ s.prime = false
  /-- BUSY implies that CUR is a command (30_encoding.md R94) whose launch check still holds (20_memory.md R67, R76). -/
  busy_command : s.busy = true → ∃ i, decodeOpcode s.cur = .ok i ∧ launchCheck Config.W i s = .none
  /-- The hidden working state is held only for a MKPRIME in flight (10_state.md R39; log 5). -/
  search_mkprime : s.search ≠ none → s.busy = true ∧ decodeOpcode s.cur = .ok .mkprime

/-- The reserved words of an instance of `L` limbs, as the register map lists them, up to the end of the window (20_memory.md
R65, R71). -/
abbrev ReservedWord (L addr : Nat) : Prop :=
  (0x001C ≤ addr ∧ addr < 0x1000) ∨ (0x1000 + 4 * L ≤ addr ∧ addr < 0x2000) ∨ (0x2000 + 4 * L ≤ addr ∧ addr < 0x3000) ∨
    (0x3000 + 4 * L ≤ addr ∧ addr < 0x4000) ∨ (0x4000 + 4 * L ≤ addr ∧ addr < 0x5000) ∨
    (0x5000 ≤ addr ∧ addr < 0x8000)

/-- The word of the window at `addr` may show a change when a command runs: STATUS, or a word of the bank of R. -/
abbrev CommandVisible (addr : Nat) : Prop := (0x0004 ≤ addr ∧ addr < 0x0008) ∨ (0x4000 ≤ addr ∧ addr < 0x5000)

/-- `k` steps of the machine, stopping at a fault or a refusal. -/
def runSteps (k : Nat) (s : State) : Host.Outcome State Fault Refusal := core.run k s

end Sys2Proof.Machine
end

