-- ==== Sys2Proof/Certificates/Slice0/Obligations.lean ====
section
/-! DEFINITION. What is claimed of the NTE, from the numbered rules of spec/. A step's next state is written out as the state
before with the fields that change, so each such statement is the result, the completion and the frame at once. -/

open Sys2Proof Sys2Proof.Machine

/-! ## Reset -/

/-- 10_state.md R40: what reset leaves, as far as the spec gives a value; CMD reads 0 in every state. -/
def Obligations.ResetLeavesTheSpecifiedValues : Prop :=
  State.reset.regA = 0 ∧ State.reset.regB = 0 ∧ State.reset.regN = 0 ∧ State.reset.regR = 0 ∧
    statusWord State.reset = 0 ∧ ctrlWord State.reset = 0 ∧ State.reset.iters = 0 ∧ State.reset.bits = 0 ∧
    State.reset.seed = 0 ∧ State.reset.busy = false ∧ State.reset.rngrdy = false ∧ irq State.reset = false ∧
    ∀ s : State, memRead Config.L 0x0000 s = 0

/-- 70_reset_and_hazards.md R270: reset acts in any state, also in the middle of a command, and leaves nothing of the NTE's state
but what reset leaves. The host's script, what it has read and the later turns are the environment's (log 6, log 7), and the values
of RNG.S and CUR, which 10_state.md R40 leaves unspecified, are the model's choice (log 3, log 4). -/
def Obligations.ResetTurnLeavesTheResetState : Prop :=
  ∀ (s : State) (rest : List Agent), s.turns = .reset :: rest →
    step s = .next { State.reset with script := s.script, reads := s.reads, turns := rest }

/-! ## A step runs the decoded command -/

/-- 30_encoding.md R94, 20_memory.md R64 line 4: when it is the host's turn, BUSY is 0 and its next access writes to CMD a word that
decodes to a command, the step is `exec` of that command, with the access and the turn used up. -/
def Obligations.StepRunsTheCommandTheHostWrites : Prop :=
  ∀ (s : State) (v : Word) (rest : List HostOp) (i : Instr),
    nextAgent s = .host → s.script = .write 0x0000 4 v :: rest → s.busy = false → decode v = .ok i → i.wellFormed = true →
      step s = exec i { s with script := rest, turns := s.turns.tail }

/-- 60_exceptions.md R241, R242: when it is the engine's turn and BUSY is 1, the step is `exec` of the command CUR names, with the
turn used up. -/
def Obligations.StepRunsTheCommandInFlight : Prop :=
  ∀ (s : State) (i : Instr),
    nextAgent s = .engine → s.busy = true → decodeOpcode s.cur = .ok i → i.wellFormed = true →
      step s = exec i { s with turns := s.turns.tail }

/-- 30_encoding.md R93: every word but the nine ends at once with ILLCMD and nothing else. -/
def Obligations.IllegalWordEndsWithIllcmd : Prop :=
  ∀ (s : State) (v : Word) (rest : List HostOp),
    nextAgent s = .host → s.script = .write 0x0000 4 v :: rest → s.busy = false →
      (v.toNat / 256 ≠ 0 ∨ v.toNat % 256 ∉ [0x01, 0x02, 0x03, 0x04, 0x05, 0x06, 0x07, 0x10, 0x11]) →
        step s = .next { s with
          regR := 0, done := true, err := true, errcode := .illcmd, noinv := false, prime := false
          script := rest, turns := s.turns.tail }

/-- 30_encoding.md R91: the opcode map, and that the decoder accepts exactly the nine command words. -/
def Obligations.DecoderAcceptsExactlyTheNineWords : Prop :=
  (∀ (v : Word) (i : Instr), decode v = .ok i ↔ v = encode i) ∧
    encode .gcd = 0x00000001 ∧ encode .modinv = 0x00000002 ∧ encode .powmod = 0x00000003 ∧ encode .isprime = 0x00000004 ∧
    encode .mkprime = 0x00000005 ∧ encode .modred = 0x00000006 ∧ encode .mulmod = 0x00000007 ∧
    encode .rnginit = 0x00000010 ∧ encode .rngclear = 0x00000011

/-- 30_encoding.md R90, R91: one word of each family, bit by bit, decodes to the command it stands for. -/
def Obligations.WrittenOutWordsDecode : Prop :=
  decode 0b00000000000000000000000000000001#32 = .ok .gcd ∧
    decode 0b00000000000000000000000000000011#32 = .ok .powmod ∧
    decode 0b00000000000000000000000000000101#32 = .ok .mkprime ∧
    decode 0b00000000000000000000000000000111#32 = .ok .mulmod ∧
    decode 0b00000000000000000000000000010001#32 = .ok .rngclear

/-! ## The commands: completion, with result, flags and frame. No completion writes CUR (60_exceptions.md R242); that it is then
still the command's opcode, where 93_implementation_defined.md U23 gives it any value, is the model's choice (log 23). -/

/-- 40_arith_modred_mulmod.md R123. -/
def Obligations.ModredCompletesWithTheResidue : Prop :=
  ∀ s : State, s.busy = true → s.regN ≠ 0 →
    exec .modred s = .next { s with regR := s.regA % s.regN, busy := false, done := true, search := none }

/-- 40_arith_modred_mulmod.md R124: the product is exact before it is reduced. -/
def Obligations.MulmodCompletesWithTheResidueOfTheProduct : Prop :=
  ∀ s : State, s.busy = true → s.regN ≠ 0 →
    exec .mulmod s = .next { s with regR := s.regA * s.regB % s.regN, busy := false, done := true, search := none }

/-- 41_gcd.md R140, R141: the Euclidean loop gives the greatest common divisor, for all operands. -/
def Obligations.GcdCompletesWithTheGreatestCommonDivisor : Prop :=
  ∀ s : State, s.busy = true →
    exec .gcd s = .next { s with regR := Nat.gcd s.regA s.regB, busy := false, done := true, search := none }

/-- 42_modinv.md R150, R155: the inverse is the unique one in range, the sentinel 0 comes with NOINV exactly when the greatest
common divisor is above 1, and for N >= 2 the value 0 means just that. -/
def Obligations.ModinvCompletesWithTheInverse : Prop :=
  ∀ s : State, s.busy = true → s.regN ≠ 0 →
    ∃ (x : Nat) (f : Bool),
      exec .modinv s = .next { s with regR := x, noinv := f, busy := false, done := true, search := none } ∧
        (f = true ↔ 1 < Nat.gcd s.regA s.regN) ∧
        (f = true → x = 0) ∧
        (f = false → x < s.regN ∧ s.regA * x % s.regN = 1 % s.regN ∧
          ∀ y, y < s.regN → s.regA * y % s.regN = 1 % s.regN → y = x) ∧
        (2 ≤ s.regN → (x = 0 ↔ f = true)) ∧
        (s.regN = 1 → x = 0 ∧ f = false)

/-- 43_powmod.md R165, R166: square-and-multiply gives the power's residue. -/
def Obligations.PowmodCompletesWithThePower : Prop :=
  ∀ s : State, s.busy = true → s.regN ≠ 0 →
    exec .powmod s = .next { s with regR := s.regA ^ s.regB % s.regN, busy := false, done := true, search := none }

/-- 43_powmod.md R168: the result is the canonical residue, 0 for modulus 1, and 1 for exponent 0 and any other modulus. -/
def Obligations.PowmodResultIsCanonical : Prop :=
  ∀ s : State, s.busy = true → s.regN ≠ 0 →
    ∃ t : State, exec .powmod s = .next t ∧ t.regR < s.regN ∧ (s.regN = 1 → t.regR = 0) ∧
      (s.regB = 0 → 2 ≤ s.regN → t.regR = 1)

/-- 43_powmod.md R170, 42_modinv.md R153: an argument at or above the modulus acts as its residue. -/
def Obligations.ArgumentAboveTheModulusActsAsItsResidue : Prop :=
  ∀ s : State, s.busy = true → s.regN ≠ 0 →
    (∃ t : State, exec .powmod s = .next t ∧
        exec .powmod { s with regA := s.regA % s.regN } = .next { t with regA := s.regA % s.regN }) ∧
      ∃ t : State, exec .modinv s = .next t ∧
        exec .modinv { s with regA := s.regA % s.regN } = .next { t with regA := s.regA % s.regN }

/-- 44_isprime.md R186: ISPRIME completes with its verdict in R and PRIME and Random State advanced by the draws it took. -/
def Obligations.IsprimeCompletesWithTheVerdict : Prop :=
  ∀ s : State, s.busy = true → s.iters.toNat ≠ 0 → s.rngrdy = true →
    ∃ (verdict : Bool) (S : RngState), (verdict, S) = isPrime s.regN s.iters.toNat s.rng ∧
      exec .isprime s = .next { s with
        regR := if verdict then 1 else 0, prime := verdict, rng := S, busy := false, done := true, search := none }

/-- 44_isprime.md R181: N from 0 to 4 is decided without a draw whatever ITERS is; no other N is. -/
def Obligations.IsprimeFastPaths : Prop :=
  ∀ s : State, s.busy = true → s.iters.toNat ≠ 0 → s.rngrdy = true →
    (s.regN ≤ 1 ∨ s.regN = 4 →
      exec .isprime s = .next { s with regR := 0, prime := false, busy := false, done := true, search := none }) ∧
    (s.regN = 2 ∨ s.regN = 3 →
      exec .isprime s = .next { s with regR := 1, prime := true, busy := false, done := true, search := none }) ∧
    (5 ≤ s.regN → isPrime s.regN s.iters.toNat s.rng =
      primeRounds s.regN (decompose s.regN).1 (decompose s.regN).2 (s.iters.toNat - 1) s.rng)

/-- 44_isprime.md R183: with ITERS = 1 no round runs, and every N >= 5 is accepted without a draw. -/
def Obligations.IsprimeWithOneIterationAcceptsUntested : Prop :=
  ∀ s : State, s.busy = true → s.iters.toNat = 1 → s.rngrdy = true → 5 ≤ s.regN →
    exec .isprime s = .next { s with regR := 1, prime := true, busy := false, done := true, search := none }

/-- 44_isprime.md R182: the decomposition of N - 1. -/
def Obligations.DecompositionIsTheUniqueOddPart : Prop :=
  ∀ n s r : Nat, 5 ≤ n → decompose n = (s, r) →
    n - 1 = 2 ^ s * r ∧ r % 2 = 1 ∧ (∀ s' r', n - 1 = 2 ^ s' * r' → r' % 2 = 1 → s' = s ∧ r' = r) ∧
      (n % 2 = 1 → 1 ≤ s) ∧ (n % 2 = 0 → s = 0 ∧ r = n - 1)

/-- 44_isprime.md R185, R187, 90_conflicts.md C5: a round passes exactly when the power is 1, or it or one of its at most s - 1
squares is n - 1. -/
def Obligations.RoundIsTheStrongPseudoprimeTest : Prop :=
  ∀ n s r a : Nat, 5 ≤ n →
    (roundPasses n s r a = true ↔ a ^ r % n = 1 ∨ ∃ j, j ≤ s - 1 ∧ a ^ (2 ^ j * r) % n = n - 1)

/-- 44_isprime.md R189: a prime is never given R = 0, whatever the draws. -/
def Obligations.IsprimeNeverRejectsAPrime : Prop :=
  ∀ s : State, s.busy = true → s.iters.toNat ≠ 0 → s.rngrdy = true → Nat.Prime s.regN →
    ∃ S : RngState, exec .isprime s = .next { s with
      regR := 1, prime := true, rng := S, busy := false, done := true, search := none }

/-- 44_isprime.md R190: each round run takes exactly one draw and at most ITERS - 1 run, all of them when the verdict is true; the
draws are seen here where they are queued (log 2). -/
def Obligations.IsprimeTakesOneDrawPerRound : Prop :=
  ∀ s : State, s.busy = true → s.iters.toNat ≠ 0 → s.rngrdy = true → 5 ≤ s.regN →
    s.iters.toNat - 1 ≤ s.rng.queued.length →
      ∃ (k : Nat) (t : State), exec .isprime s = .next t ∧ k ≤ s.iters.toNat - 1 ∧
        t.rng = { queued := s.rng.queued.drop k, code := s.rng.code } ∧
        (t.prime = true → k = s.iters.toNat - 1) ∧ (t.prime = false → 1 ≤ k) ∧
        ∀ j, j < k → (roundPasses s.regN (decompose s.regN).1 (decompose s.regN).2
          (2 + (s.rng.queued.getD j 0) % (s.regN - 3)) = true ↔ (t.prime = true ∨ j + 1 < k))

/-- 45_mkprime.md R202, R203: the engine's step on a candidate that qualifies, that is, one of BITS binary digits that passes IsPrime
on the draws after its own; the generator is left where these draws leave it. One candidate a step is the model's choice (log 5). -/
def Obligations.MkprimeCompletesWithAQualifyingCandidate : Prop :=
  ∀ (s : State) (c : Nat) (S₁ S₂ : RngState), s.busy = true → s.iters.toNat ≠ 0 → s.bits.toNat ≤ Config.W → s.rngrdy = true →
    randBits (s.search.getD s.rng) s.bits.toNat = (c, S₁) → bitLength c = s.bits.toNat →
    isPrime c s.iters.toNat S₁ = (true, S₂) →
      exec .mkprime s = .next { s with regR := c, rng := S₂, busy := false, done := true, search := none }

/-- The model's choice (log 5), from 45_mkprime.md R202, R205, R206: a candidate that does not qualify leaves every register, every
flag and RNG.S as they are; only the hidden working state moves, past the candidate's own draw if it is too short, and past the
draws of its test as well if it has BITS binary digits and fails it. -/
def Obligations.MkprimeKeepsSearchingOtherwise : Prop :=
  ∀ (s : State) (c : Nat) (S₁ : RngState), s.busy = true → s.iters.toNat ≠ 0 → s.bits.toNat ≤ Config.W → s.rngrdy = true →
    randBits (s.search.getD s.rng) s.bits.toNat = (c, S₁) →
      (bitLength c ≠ s.bits.toNat → exec .mkprime s = .next { s with search := some S₁ }) ∧
      ∀ S₂ : RngState, bitLength c = s.bits.toNat → isPrime c s.iters.toNat S₁ = (false, S₂) →
        exec .mkprime s = .next { s with search := some S₂ }

/-- 45_mkprime.md R202, R206: left to the engine, a MKPRIME completes with the first candidate that qualifies, after one turn per
candidate; `c j` is candidate number `j`, drawn where `g j` stands, `h j` is the generator after its own draw, and `g (j + 1)` after
the draws of its test as well, if it is tested (turns: log 5, log 6). -/
def Obligations.MkprimeCompletesAtTheFirstQualifyingCandidate : Prop :=
  ∀ (s : State) (k : Nat) (c : Nat → Nat) (g h : Nat → RngState),
    s.busy = true → decodeOpcode s.cur = .ok .mkprime → s.iters.toNat ≠ 0 → s.bits.toNat ≤ Config.W → s.rngrdy = true →
    s.search = none → s.turns = [] → g 0 = s.rng →
    (∀ j, j ≤ k → randBits (g j) s.bits.toNat = (c j, h j)) →
    (∀ j, j < k → (bitLength (c j) ≠ s.bits.toNat ∧ g (j + 1) = h j) ∨
      (bitLength (c j) = s.bits.toNat ∧ isPrime (c j) s.iters.toNat (h j) = (false, g (j + 1)))) →
    bitLength (c k) = s.bits.toNat → isPrime (c k) s.iters.toNat (h k) = (true, g (k + 1)) →
      runSteps (k + 1) s = .next { s with regR := c k, rng := g (k + 1), busy := false, done := true, search := none }

/-- 45_mkprime.md R204 with R202 and R205: a completed MKPRIME leaves a number of exactly BITS binary digits, the one it drew, for
which IsPrime returned true on the draws that followed, and BITS is at least 2. That the completing step tries one candidate, drawn
from where the hidden field `search` stands, is the model's choice (log 5). -/
def Obligations.MkprimeResultHasExactlyBitsDigits : Prop :=
  ∀ s t : State, s.busy = true → exec .mkprime s = .next t → t.busy = false →
    2 ≤ s.bits.toNat ∧ 2 ^ (s.bits.toNat - 1) ≤ t.regR ∧ t.regR < 2 ^ s.bits.toNat ∧
      t.regR = (randBits (s.search.getD s.rng) s.bits.toNat).1 ∧
      isPrime t.regR s.iters.toNat (randBits (s.search.getD s.rng) s.bits.toNat).2 = (true, t.rng)

/-- 45_mkprime.md R205 (a): a MKPRIME of 0 or 1 bits never completes: without a reset BUSY stays 1 however long the machine runs. -/
def Obligations.MkprimeBelowTwoBitsNeverCompletes : Prop :=
  ∀ (k : Nat) (s t : State), s.busy = true → decodeOpcode s.cur = .ok .mkprime → s.bits.toNat ≤ 1 → .reset ∉ s.turns →
    runSteps k s = .next t → t.busy = true

/-- 46_rng_system.md R211. -/
def Obligations.RnginitCompletesWithRandomStateReady : Prop :=
  ∀ s : State, s.busy = true → s.rngrdy = false →
    exec .rnginit s = .next { s with
      rng := Config.rngInit s.seed, rngrdy := true, regR := 0, busy := false, done := true, search := none }

/-- 46_rng_system.md R213; RNG.S, unspecified from then on, is left as it is (the model's choice, log 12). -/
def Obligations.RngclearCompletesWithRandomStateTornDown : Prop :=
  ∀ s : State, s.busy = true → s.rngrdy = true →
    exec .rngclear s = .next { s with rngrdy := false, regR := 0, busy := false, done := true, search := none }

/-! ## Launch and errors -/

/-- 30_encoding.md R94: a launch that passes its checks, for each command under exactly the conditions of R95. -/
def Obligations.LaunchThatPassesItsChecksStartsTheCommand : Prop :=
  ∀ (i : Instr) (s : State), s.busy = false →
    (i = .modred ∨ i = .mulmod ∨ i = .modinv ∨ i = .powmod → s.regN ≠ 0) →
    (i = .isprime ∨ i = .mkprime → s.iters.toNat ≠ 0 ∧ s.rngrdy = true) →
    (i = .mkprime → s.bits.toNat ≤ Config.W) →
    (i = .rnginit → s.rngrdy = false) → (i = .rngclear → s.rngrdy = true) →
      exec i s = .next { s with
        done := false, err := false, errcode := .none, noinv := false, prime := false, regR := 0
        cur := opcode i, busy := true, search := none }

/-- 30_encoding.md R95, 60_exceptions.md R246: which error a write to CMD ends with. -/
def Obligations.LaunchChecksReportTheLowestCode : Prop :=
  ∀ (s : State) (v : Word), s.busy = false →
    ∃ t : State, writeCmd v s = .next t ∧ (t.busy = true ↔ t.errcode = .none) ∧
      ((∀ i, decode v ≠ .ok i) → t.errcode = .illcmd) ∧
      ∀ i, decode v = .ok i →
        let modzero := (i = .modred ∨ i = .mulmod ∨ i = .modinv ∨ i = .powmod) ∧ s.regN = 0
        let param := ((i = .isprime ∨ i = .mkprime) ∧ s.iters.toNat = 0) ∨ (i = .mkprime ∧ Config.W < s.bits.toNat)
        let rngstate := ((i = .isprime ∨ i = .mkprime ∨ i = .rngclear) ∧ s.rngrdy = false) ∨ (i = .rnginit ∧ s.rngrdy = true)
        (modzero → t.errcode = .modzero) ∧
          (¬ modzero ∧ param → t.errcode = .param) ∧
          (¬ modzero ∧ ¬ param ∧ rngstate → t.errcode = .rngstate) ∧
          (¬ modzero ∧ ¬ param ∧ ¬ rngstate → t.errcode = .none)

/-- 60_exceptions.md R243: error completion is precise: the state before the launch with R = 0 and the STATUS fields rewritten. -/
def Obligations.ErrorCompletionIsPrecise : Prop :=
  ∀ (s t : State) (v : Word), s.busy = false → writeCmd v s = .next t → t.errcode ≠ .none →
    t = { s with regR := 0, done := true, err := true, errcode := t.errcode, noinv := false, prime := false }

/-- 43_powmod.md R169, 42_modinv.md R157, and for MODRED and MULMOD 40_arith_modred_mulmod.md R123, R124 with 30_encoding.md R95:
modulus 0 is error MODZERO at the launch. -/
def Obligations.ModulusZeroIsAnErrorAtLaunch : Prop :=
  ∀ (s : State) (i : Instr), i = .powmod ∨ i = .modinv ∨ i = .modred ∨ i = .mulmod → s.busy = false → s.regN = 0 →
    exec i s = .next { s with regR := 0, done := true, err := true, errcode := .modzero, noinv := false, prime := false }

/-! ## Host accesses -/

/-- 20_memory.md R63: a read records its word and changes nothing else, busy or not. -/
def Obligations.ReadTurnOnlyRecordsTheWord : Prop :=
  ∀ (s : State) (addr : Nat) (rest : List HostOp),
    nextAgent s = .host → s.script = .read addr 4 :: rest → addr % 4 = 0 → addr < 0x8000 →
      step s = .next { s with script := rest, reads := memRead Config.L addr s :: s.reads, turns := s.turns.tail }

/-- 20_memory.md R63, R65, 10_state.md R26: the word at every address of the window. -/
def Obligations.EveryWordReadsItsRegister : Prop :=
  ∀ (L : Nat) (s : State), 1 ≤ L → L ≤ 1024 →
    memRead L 0x0000 s = 0 ∧
    ((memRead L 0x0004 s).getLsbD 0 = s.busy ∧ (memRead L 0x0004 s).getLsbD 1 = s.done ∧
      (memRead L 0x0004 s).getLsbD 2 = s.err ∧ (memRead L 0x0004 s).getLsbD 3 = s.noinv ∧
      (memRead L 0x0004 s).getLsbD 4 = s.prime ∧ (memRead L 0x0004 s).getLsbD 5 = s.ovr ∧
      (memRead L 0x0004 s).getLsbD 6 = s.rngrdy ∧ (memRead L 0x0004 s).getLsbD 7 = false ∧
      (memRead L 0x0004 s).toNat / 2 ^ 8 = s.errcode.toNat) ∧
    memRead L 0x0008 s = (if s.ie then 1 else 0) ∧
    memRead L 0x000C s = s.iters ∧ memRead L 0x0010 s = s.bits ∧
    (memRead L 0x0014 s).toNat = s.seed.toNat % 2 ^ 32 ∧ (memRead L 0x0018 s).toNat = s.seed.toNat / 2 ^ 32 ∧
    (∀ i, i < L →
      (memRead L (0x1000 + 4 * i) s).toNat = s.regA / 2 ^ (32 * i) % 2 ^ 32 ∧
      (memRead L (0x2000 + 4 * i) s).toNat = s.regB / 2 ^ (32 * i) % 2 ^ 32 ∧
      (memRead L (0x3000 + 4 * i) s).toNat = s.regN / 2 ^ (32 * i) % 2 ^ 32 ∧
      (memRead L (0x4000 + 4 * i) s).toNat = s.regR / 2 ^ (32 * i) % 2 ^ 32) ∧
    ∀ addr, addr % 4 = 0 → ReservedWord L addr → memRead L addr s = 0

/-- 20_memory.md R64: a host write, line by line, the first line that matches. -/
def Obligations.WriteFollowsTheFirstMatchingLine : Prop :=
  ∀ (s : State) (addr : Nat) (v : Word) (rest : List HostOp),
    nextAgent s = .host → s.script = .write addr 4 v :: rest → addr % 4 = 0 → addr < 0x8000 →
      let p := { s with script := rest, turns := s.turns.tail }
      if addr = 0x0004 then
        step s = .next { p with
          done := if v.getLsbD 1 then false else s.done, ovr := if v.getLsbD 5 then false else s.ovr }
      else if ReservedWord Config.L addr ∨ (0x4000 ≤ addr ∧ addr < 0x5000) then step s = .next p
      else if s.busy = true then step s = .next { p with ovr := true }
      else if addr = 0x0000 then
        (∀ i, decode v = .ok i → step s = exec i p) ∧
          ((∀ i, decode v ≠ .ok i) → step s = .next { p with
            regR := 0, done := true, err := true, errcode := .illcmd, noinv := false, prime := false })
      else if addr = 0x0008 then step s = .next { p with ie := v.getLsbD 0 }
      else if addr = 0x000C then step s = .next { p with iters := v }
      else if addr = 0x0010 then step s = .next { p with bits := v }
      else if addr = 0x0014 then
        ∃ x : Seed, step s = .next { p with seed := x } ∧ x.toNat = s.seed.toNat / 2 ^ 32 * 2 ^ 32 + v.toNat
      else if addr = 0x0018 then
        ∃ x : Seed, step s = .next { p with seed := x } ∧ x.toNat = v.toNat * 2 ^ 32 + s.seed.toNat % 2 ^ 32
      else
        let i := addr % 0x1000 / 4
        i < Config.L ∧
        ∃ x old : Nat,
          ((addr / 0x1000 = 1 ∧ old = s.regA ∧ step s = .next { p with regA := x }) ∨
            (addr / 0x1000 = 2 ∧ old = s.regB ∧ step s = .next { p with regB := x }) ∨
            (addr / 0x1000 = 3 ∧ old = s.regN ∧ step s = .next { p with regN := x })) ∧
          x / 2 ^ (32 * i) % 2 ^ 32 = v.toNat ∧
          ∀ j, j ≠ i → x / 2 ^ (32 * j) % 2 ^ 32 = old / 2 ^ (32 * j) % 2 ^ 32

/-- 20_memory.md R67: while BUSY = 1 a write to CMD, CTRL, a parameter or an operand is dropped and sets OVR. -/
def Obligations.WriteWhileBusyIsDropped : Prop :=
  ∀ (s : State) (addr : Nat) (v : Word) (rest : List HostOp),
    nextAgent s = .host → s.script = .write addr 4 v :: rest → s.busy = true →
    (addr = 0x0000 ∨ addr = 0x0008 ∨ addr = 0x000C ∨ addr = 0x0010 ∨ addr = 0x0014 ∨ addr = 0x0018 ∨
      ∃ i, i < Config.L ∧ (addr = 0x1000 + 4 * i ∨ addr = 0x2000 + 4 * i ∨ addr = 0x3000 + 4 * i)) →
      step s = .next { s with script := rest, turns := s.turns.tail, ovr := true }

/-- 20_memory.md R66: a register of L limbs is the sum of its limbs, low limb first, as the host reads them. -/
def Obligations.RegisterIsTheSumOfItsLimbs : Prop :=
  ∀ (L : Nat) (s : State), 1 ≤ L → L ≤ 1024 → s.regR < 2 ^ (32 * L) →
    s.regR = ((List.range L).map fun i => (memRead L (0x4000 + 4 * i) s).toNat * 2 ^ (32 * i)).sum

/-- 20_memory.md R71: reserved words read 0 and ignore writes; reserved bits of STATUS and CTRL read 0 and ignore writes. -/
def Obligations.ReservedWordsAndBitsAreInert : Prop :=
  (∀ (L addr : Nat) (v : Word) (s : State), 1 ≤ L → L ≤ 1024 → addr % 4 = 0 → ReservedWord L addr →
    memRead L addr s = 0 ∧ memWrite L addr v s = .next s) ∧
  (∀ s : State, (statusWord s).getLsbD 7 = false ∧ (statusWord s).toNat < 2 ^ 12 ∧ (ctrlWord s).toNat < 2) ∧
  (∀ (v w : Word) (s : State), v.getLsbD 1 = w.getLsbD 1 → v.getLsbD 5 = w.getLsbD 5 → writeStatus v s = writeStatus w s) ∧
  ∀ (v w : Word) (s : State), v.getLsbD 0 = w.getLsbD 0 → writeCtrl v s = writeCtrl w s

/-- 20_memory.md R78: what the host reads while a command runs, in every state with the invariants. -/
def Obligations.ReadsWhileBusyShowNoResult : Prop :=
  ∀ s : State, s.Inv → s.busy = true →
    ((memRead Config.L 0x0004 s).getLsbD 0 = true ∧ (memRead Config.L 0x0004 s).getLsbD 1 = false ∧
      (memRead Config.L 0x0004 s).getLsbD 2 = false ∧ (memRead Config.L 0x0004 s).getLsbD 3 = false ∧
      (memRead Config.L 0x0004 s).getLsbD 4 = false ∧ (memRead Config.L 0x0004 s).getLsbD 5 = s.ovr ∧
      (memRead Config.L 0x0004 s).getLsbD 6 = s.rngrdy ∧ (memRead Config.L 0x0004 s).toNat / 2 ^ 8 = 0) ∧
    ∀ i, i < Config.L → memRead Config.L (0x4000 + 4 * i) s = 0

/-- 20_memory.md R69: an access that is not one aligned 32-bit word of the window is refused, whatever the state. -/
def Obligations.AccessesTheBusCannotCarryAreRefused : Prop :=
  ∀ (s : State) (addr width : Nat) (v : Word) (rest : List HostOp),
    nextAgent s = .host → s.script = .read addr width :: rest ∨ s.script = .write addr width v :: rest →
      if width ≠ 4 then step s = .refused .accessWidth
      else if addr % 4 ≠ 0 then step s = .refused .accessMisaligned
      else 0x8000 ≤ addr → step s = .refused .accessOutsideWindow

/-- 60_exceptions.md R250: the interrupt line follows IE and DONE: a completion and an error completion raise it if IE is 1, a
write of 1 to STATUS bit 1, a launch that starts a command and reset lower it. -/
def Obligations.InterruptFollowsEnableAndDone : Prop :=
  (∀ s : State, irq s = true ↔ s.ie = true ∧ s.done = true) ∧
  (∀ (i : Instr) (s t : State), s.Inv → s.ie = true → exec i s = .next t → (irq t = true ↔ t.busy = false)) ∧
  (∀ (v : Word) (s : State), v.getLsbD 1 = true → irq (writeStatus v s) = false) ∧
  irq State.reset = false

/-! ## Invariants and whole-machine rules -/

/-- 10_state.md R41, at reset. -/
def Obligations.ResetStateHasTheInvariants : Prop := State.reset.Inv

/-- 10_state.md R41, 40_arith_modred_mulmod.md R127: every step keeps the invariants: all four registers stay below 2^W, BUSY, DONE,
ERR, ERRCODE, NOINV, PRIME and R stay consistent, and a command in flight still passes its launch check. -/
def Obligations.StepKeepsTheInvariants : Prop :=
  ∀ s t : State, s.Inv → step s = .next t → t.Inv

/-- The frame of all nine commands, launch and completion (10_state.md R22, 30_encoding.md R94, 60_exceptions.md R242): operands,
parameters, IE, OVR and the environment are untouched; RNGRDY and each flag change only where the spec says so; every byte of the
window outside STATUS and the bank of R reads as before. That RNG.S is left as it is by RNGCLEAR, which 46_rng_system.md R213 leaves
unspecified, and CUR by a completion, which U23 leaves unspecified, are the model's choices (log 12, log 23). -/
def Obligations.CommandFrame : Prop :=
  ∀ (i : Instr) (s t : State), exec i s = .next t →
    t.regA = s.regA ∧ t.regB = s.regB ∧ t.regN = s.regN ∧ t.iters = s.iters ∧ t.bits = s.bits ∧ t.seed = s.seed ∧
    t.ie = s.ie ∧ t.ovr = s.ovr ∧ t.script = s.script ∧ t.reads = s.reads ∧ t.turns = s.turns ∧
    (t.rngrdy ≠ s.rngrdy → s.busy = true ∧ (i = .rnginit ∨ i = .rngclear)) ∧
    (t.rng ≠ s.rng → s.busy = true ∧ (i = .isprime ∨ i = .mkprime ∨ i = .rnginit)) ∧
    (t.cur ≠ s.cur → s.busy = false) ∧
    (t.noinv ≠ s.noinv → s.busy = false ∨ i = .modinv) ∧
    (t.prime ≠ s.prime → s.busy = false ∨ i = .isprime) ∧
    (t.err ≠ s.err ∨ t.errcode ≠ s.errcode → s.busy = false) ∧
    ∀ addr, addr < 0x8000 → ¬ CommandVisible addr → readByte Config.L addr t = readByte Config.L addr s

/-- 10_state.md R22: A, B and N change only by the host's write of one of their limbs in IDLE, or by reset. -/
def Obligations.OperandsChangeOnlyByHostWriteOrReset : Prop :=
  ∀ s t : State, step s = .next t → (t.regA ≠ s.regA ∨ t.regB ≠ s.regB ∨ t.regN ≠ s.regN) →
    nextAgent s = .reset ∨
      (nextAgent s = .host ∧ s.busy = false ∧ ∃ (addr : Nat) (v : Word) (rest : List HostOp),
        s.script = .write addr 4 v :: rest ∧ 0x1000 ≤ addr ∧ addr < 0x4000 ∧
        (t.regA ≠ s.regA → addr < 0x2000) ∧ (t.regB ≠ s.regB → 0x2000 ≤ addr ∧ addr < 0x3000) ∧
        (t.regN ≠ s.regN → 0x3000 ≤ addr))

/-- 20_memory.md R67, R76: from launch to completion no step but reset changes what the command computes on; CUR is left as it is by
the completion too, which is the model's choice (log 23). -/
def Obligations.OperandsAreConstantWhileBusy : Prop :=
  ∀ s t : State, s.busy = true → nextAgent s ≠ .reset → step s = .next t →
    t.regA = s.regA ∧ t.regB = s.regB ∧ t.regN = s.regN ∧ t.iters = s.iters ∧ t.bits = s.bits ∧ t.seed = s.seed ∧
      t.ie = s.ie ∧ t.cur = s.cur ∧ (t.busy = true → t.rng = s.rng ∧ t.rngrdy = s.rngrdy ∧ t.regR = s.regR)

/-- 10_state.md R23: R changes only by a launch, which writes 0, by a completion, or by reset. -/
def Obligations.ResultChangesOnlyByLaunchCompletionOrReset : Prop :=
  ∀ s t : State, step s = .next t → t.regR ≠ s.regR →
    (nextAgent s = .reset ∧ t.regR = 0) ∨
    (nextAgent s = .engine ∧ s.busy = true ∧ t.busy = false ∧ t.done = true) ∨
    (nextAgent s = .host ∧ s.busy = false ∧ t.regR = 0 ∧ ∃ (v : Word) (rest : List HostOp), s.script = .write 0x0000 4 v :: rest)

/-- 10_state.md R31: OVR is set only by a dropped write and cleared only by a write of 1 to STATUS bit 5 or by reset. -/
def Obligations.OverrunFlagChangesOnlyAsStated : Prop :=
  ∀ s t : State, step s = .next t →
    (s.ovr = false → t.ovr = true → nextAgent s = .host ∧ s.busy = true ∧
      ∃ (addr : Nat) (v : Word) (rest : List HostOp), s.script = .write addr 4 v :: rest ∧ addr ≠ 0x0004 ∧ addr < 0x4000 ∧
        ¬ ReservedWord Config.L addr) ∧
    (s.ovr = true → t.ovr = false → nextAgent s = .reset ∨ (nextAgent s = .host ∧
      ∃ (v : Word) (rest : List HostOp), s.script = .write 0x0004 4 v :: rest ∧ v.getLsbD 5 = true))

/-- 10_state.md R31, 46_rng_system.md R210: RNGRDY is set only by the completion of RNGINIT and cleared only by that of RNGCLEAR or by
reset. -/
def Obligations.RandomStateLifecycle : Prop :=
  ∀ s t : State, step s = .next t →
    (s.rngrdy = false → t.rngrdy = true → nextAgent s = .engine ∧ s.busy = true ∧ decodeOpcode s.cur = .ok .rnginit) ∧
    (s.rngrdy = true → t.rngrdy = false →
      nextAgent s = .reset ∨ (nextAgent s = .engine ∧ s.busy = true ∧ decodeOpcode s.cur = .ok .rngclear))

/-- 10_state.md R37, 93_implementation_defined.md U12: while RNGRDY = 0 no step reads RNG.S: with any other value in it the step
answers the same, RNG.S aside while it stays unready, and RNG.S too once RNGINIT has written it. -/
def Obligations.UnreadyRandomStateIsNeverRead : Prop :=
  ∀ (s : State) (g : RngState), s.rngrdy = false →
    (∀ t, step s = .next t → ∃ g', step { s with rng := g } = .next { t with rng := g' } ∧ (t.rngrdy = true → g' = t.rng)) ∧
    (∀ f, step s = .fault f → step { s with rng := g } = .fault f) ∧
    (∀ e, step s = .refused e → step { s with rng := g } = .refused e)

/-- 10_state.md R39, 93_implementation_defined.md U23: while BUSY = 0 no step reads CUR: with any other value in it the step answers
the same, CUR aside while the NTE stays idle, and CUR too once a launch has written it. -/
def Obligations.IdleCurIsNeverRead : Prop :=
  ∀ (s : State) (c : Opcode), s.busy = false →
    (∀ t, step s = .next t → ∃ c', step { s with cur := c } = .next { t with cur := c' } ∧ (t.busy = true → c' = t.cur)) ∧
    (∀ f, step s = .fault f → step { s with cur := c } = .fault f) ∧
    (∀ e, step s = .refused e → step { s with cur := c } = .refused e)

/-- 46_rng_system.md R210, 90_conflicts.md C3: GCD, MODINV, POWMOD, MODRED and MULMOD run whether RNGRDY is 0 or 1 and never read
Random State. -/
def Obligations.NumericCommandsIgnoreRandomState : Prop :=
  ∀ (i : Instr) (s t : State) (g : RngState) (ready : Bool),
    i = .gcd ∨ i = .modinv ∨ i = .powmod ∨ i = .modred ∨ i = .mulmod → exec i s = .next t →
      exec i { s with rng := g, rngrdy := ready } = .next { t with rng := g, rngrdy := ready }

/-- 10_state.md R21 for A, B and N, and R33, R34, R35 for ITERS, BITS and SEED: a register that a command does not read has no
influence on it. -/
def Obligations.NotReadRegistersHaveNoInfluence : Prop :=
  ∀ (i : Instr) (s t : State) (a b n : Nat) (iters bits : Word) (seed : Seed), exec i s = .next t →
    (i = .isprime ∨ i = .mkprime ∨ i = .rnginit ∨ i = .rngclear ∨ a = s.regA) →
    (i = .modred ∨ i = .modinv ∨ i = .isprime ∨ i = .mkprime ∨ i = .rnginit ∨ i = .rngclear ∨ b = s.regB) →
    (i = .gcd ∨ i = .mkprime ∨ i = .rnginit ∨ i = .rngclear ∨ n = s.regN) →
    (i = .isprime ∨ i = .mkprime → iters = s.iters) → (i = .mkprime → bits = s.bits) → (i = .rnginit → seed = s.seed) →
      exec i { s with regA := a, regB := b, regN := n, iters := iters, bits := bits, seed := seed } =
        .next { t with regA := a, regB := b, regN := n, iters := iters, bits := bits, seed := seed }

/-! ## Host notation and macros -/

/-- 30_encoding.md R97: `WR N, v` in IDLE leaves N = v (the turns are left to the default, log 6). -/
def Obligations.HostWriteOfAnOperandSetsIt : Prop :=
  ∀ (s : State) (v : Nat) (rest : List HostOp), s.busy = false → s.turns = [] → s.regN < 2 ^ Config.W → v < 2 ^ Config.W →
    s.script = hostWr Config.L .n v ++ rest →
      runSteps Config.L s = .next { s with regN := v, script := rest }

/-- 30_encoding.md R97: `RD R` in IDLE reads back the value of R and changes nothing else (turns: log 6). -/
def Obligations.HostReadOfTheResultGivesIt : Prop :=
  ∀ (s : State) (rest : List HostOp), s.busy = false → s.turns = [] → s.regR < 2 ^ Config.W →
    s.script = hostRd Config.L .r ++ rest →
      ∃ ws : List Word, runSteps Config.L s = .next { s with script := rest, reads := ws ++ s.reads } ∧
        ws.length = Config.L ∧ limbsValue ws = s.regR

/-- 47_rsa_macros.md R220: the macro ENCRYPT, from any idle state, reads back m^e modulo n (turns: log 6). -/
def Obligations.EncryptMacroReadsBackThePower : Prop :=
  ∀ (s : State) (m e n : Nat) (rest : List HostOp), s.Inv → s.busy = false → s.turns = [] →
    m < 2 ^ Config.W → e < 2 ^ Config.W → n < 2 ^ Config.W → n ≠ 0 → s.script = rsaEncrypt Config.L m e n ++ rest →
      ∃ t : State, runSteps (4 * Config.L + 3) s = .next t ∧ lastRd Config.L t = m ^ e % n ∧ t.script = rest ∧
        t.busy = false ∧ t.err = false

/-- 47_rsa_macros.md R223: the macro VERIFY, with the host's comparison at its end, says whether s^e modulo n is m (turns: log 6). -/
def Obligations.VerifyMacroComparesThePowerWithTheMessage : Prop :=
  ∀ (s : State) (m sig e n : Nat) (rest : List HostOp), s.Inv → s.busy = false → s.turns = [] →
    sig < 2 ^ Config.W → e < 2 ^ Config.W → n < 2 ^ Config.W → n ≠ 0 → s.script = rsaVerify Config.L sig e n ++ rest →
      ∃ t : State, runSteps (4 * Config.L + 3) s = .next t ∧ (rsaVerifyVerdict Config.L m t = true ↔ sig ^ e % n = m) ∧
        t.script = rest ∧ t.busy = false ∧ t.err = false

/-- 47_rsa_macros.md R224: the macro PRIVKEY gives the private exponent, or none exactly when there is none (turns: log 6). -/
def Obligations.PrivkeyMacroGivesThePrivateExponent : Prop :=
  ∀ (s : State) (e p q : Nat) (rest : List HostOp), s.Inv → s.busy = false → s.turns = [] →
    1 ≤ p → 1 ≤ q → e < 2 ^ Config.W → (p - 1) * (q - 1) < 2 ^ Config.W → s.script = rsaPrivkey Config.L e p q ++ rest →
    (p - 1) * (q - 1) ≠ 0 →
      ∃ t : State, runSteps (3 * Config.L + 3) s = .next t ∧ t.script = rest ∧ t.busy = false ∧ t.err = false ∧
        (rsaPrivkeyResult Config.L t = none ↔ 1 < Nat.gcd e ((p - 1) * (q - 1))) ∧
        ∀ d, rsaPrivkeyResult Config.L t = some d →
          d < (p - 1) * (q - 1) ∧ e * d % ((p - 1) * (q - 1)) = 1 % ((p - 1) * (q - 1))

/-- 47_rsa_macros.md R226: the macro COPRIME, with the host's comparison at its end, says whether x and y are coprime (turns:
log 6). -/
def Obligations.CoprimeMacroDecidesCoprimality : Prop :=
  ∀ (s : State) (x y : Nat) (rest : List HostOp), s.Inv → s.busy = false → s.turns = [] →
    x < 2 ^ Config.W → y < 2 ^ Config.W → s.script = rsaCoprime Config.L x y ++ rest →
      ∃ t : State, runSteps (3 * Config.L + 3) s = .next t ∧ (rsaCoprimeVerdict Config.L t = true ↔ Nat.gcd x y = 1) ∧
        t.script = rest ∧ t.busy = false ∧ t.err = false

/-- 47_rsa_macros.md R225: with the exponent MODINV gives for a key of two distinct primes, POWMOD undoes POWMOD: a message at or
above n comes back as its residue, and decryption after encryption (x = e) and verification after signing (x = d) both hold. -/
def Obligations.RsaRoundTripGivesTheMessageResidue : Prop :=
  ∀ (p q e m : Nat) (k : State), Nat.Prime p → Nat.Prime q → p ≠ q → Nat.gcd e ((p - 1) * (q - 1)) = 1 →
    k.busy = true → k.regA = e → k.regN = (p - 1) * (q - 1) →
      ∃ k' : State, exec .modinv k = .next k' ∧ k'.noinv = false ∧
        ∀ (x y : Nat) (s : State), (x = e ∧ y = k'.regR) ∨ (x = k'.regR ∧ y = e) →
          s.busy = true → s.regA = m → s.regB = x → s.regN = p * q →
            ∃ s' : State, exec .powmod s = .next s' ∧
              ∀ u : State, u.busy = true → u.regA = s'.regR → u.regB = y → u.regN = p * q →
                ∃ u' : State, exec .powmod u = .next u' ∧ u'.regR = m % (p * q)
end

