-- ==== Sys2Proof/Laws/Limbs.lean ====
section
/-! SUPPORT. The limbs of a register and their addresses: what a limb write changes and keeps (20_memory.md R64, R65, R66). -/

namespace Sys2Proof.Machine

theorem limb_toNat (x i : Nat) : (limb x i).toNat = x / 2 ^ (32 * i) % 2 ^ 32 := by
  simp [limb]

theorem pow_limb_succ (i : Nat) : 2 ^ (32 * (i + 1)) = 2 ^ (32 * i) * 2 ^ 32 := by
  rw [Nat.mul_add, Nat.mul_one, Nat.pow_add]

/-- The limb below the written one, the written one and the ones above, as one number. -/
theorem setLimb_eq (x i : Nat) (v : Word) :
    setLimb x i v = x % 2 ^ (32 * i) + 2 ^ (32 * i) * (v.toNat + 2 ^ 32 * (x / 2 ^ (32 * (i + 1)))) := by
  unfold setLimb
  rw [pow_limb_succ]
  ring

/-- The written limb reads back (20_memory.md R64 line 7). -/
theorem limb_setLimb_same (x i : Nat) (v : Word) : limb (setLimb x i v) i = v := by
  apply BitVec.eq_of_toNat_eq
  have hp : 0 < 2 ^ (32 * i) := Nat.two_pow_pos _
  rw [limb_toNat, setLimb_eq, Nat.add_mul_div_left _ _ hp, Nat.div_eq_of_lt (Nat.mod_lt _ hp), Nat.zero_add,
    Nat.add_mul_mod_self_left, Nat.mod_eq_of_lt v.isLt]

/-- Every other limb keeps its value (20_memory.md R64 line 7). -/
theorem limb_setLimb_ne (x i j : Nat) (v : Word) (h : j ≠ i) : limb (setLimb x i v) j = limb x j := by
  apply BitVec.eq_of_toNat_eq
  rw [limb_toNat, limb_toNat, setLimb_eq]
  rcases Nat.lt_or_gt_of_ne h with hlt | hgt
  · obtain ⟨k, rfl⟩ : ∃ k, i = j + 1 + k := ⟨i - (j + 1), by omega⟩
    have hs : 2 ^ (32 * (j + 1 + k)) = 2 ^ (32 * j) * (2 ^ 32 * 2 ^ (32 * k)) := by
      rw [← Nat.pow_add, ← Nat.pow_add]; congr 1; ring
    have hx := Nat.mod_add_div x (2 ^ (32 * (j + 1 + k)))
    rw [hs] at hx ⊢
    generalize v.toNat + 2 ^ 32 * (x / 2 ^ (32 * (j + 1 + k + 1))) = q
    generalize x / (2 ^ (32 * j) * (2 ^ 32 * 2 ^ (32 * k))) = q' at hx
    generalize x % (2 ^ (32 * j) * (2 ^ 32 * 2 ^ (32 * k))) = l at hx ⊢
    subst hx
    have hp : 0 < 2 ^ (32 * j) := Nat.two_pow_pos _
    rw [Nat.mul_assoc (2 ^ (32 * j)), Nat.mul_assoc (2 ^ (32 * j)), Nat.add_mul_div_left _ _ hp, Nat.add_mul_div_left _ _ hp,
      Nat.mul_assoc, Nat.mul_assoc, Nat.add_mul_mod_self_left, Nat.add_mul_mod_self_left]
  · obtain ⟨k, rfl⟩ : ∃ k, j = i + 1 + k := ⟨j - (i + 1), by omega⟩
    have hs : 2 ^ (32 * (i + 1 + k)) = 2 ^ (32 * (i + 1)) * 2 ^ (32 * k) := by
      rw [← Nat.pow_add]; congr 1; ring
    have hl : x % 2 ^ (32 * i) + 2 ^ (32 * i) * v.toNat < 2 ^ (32 * (i + 1)) := by
      have h1 : x % 2 ^ (32 * i) < 2 ^ (32 * i) := Nat.mod_lt _ (Nat.two_pow_pos _)
      have h2 : v.toNat + 1 ≤ 2 ^ 32 := v.isLt
      calc x % 2 ^ (32 * i) + 2 ^ (32 * i) * v.toNat < 2 ^ (32 * i) + 2 ^ (32 * i) * v.toNat := by omega
        _ = 2 ^ (32 * i) * (v.toNat + 1) := by ring
        _ ≤ 2 ^ (32 * i) * 2 ^ 32 := Nat.mul_le_mul_left _ h2
        _ = 2 ^ (32 * (i + 1)) := (pow_limb_succ i).symm
    have he : x % 2 ^ (32 * i) + 2 ^ (32 * i) * (v.toNat + 2 ^ 32 * (x / 2 ^ (32 * (i + 1))))
        = (x % 2 ^ (32 * i) + 2 ^ (32 * i) * v.toNat) + 2 ^ (32 * (i + 1)) * (x / 2 ^ (32 * (i + 1))) := by
      rw [pow_limb_succ]; ring
    rw [he, hs, ← Nat.div_div_eq_div_mul, ← Nat.div_div_eq_div_mul, Nat.add_mul_div_left _ _ (Nat.two_pow_pos _),
      Nat.div_eq_of_lt hl, Nat.zero_add]

/-- A write of one of the `L` limbs keeps the number below 2^(32 L) (10_state.md R41). -/
theorem setLimb_lt (L x i : Nat) (v : Word) (hi : i < L) (hx : x < 2 ^ (32 * L)) : setLimb x i v < 2 ^ (32 * L) := by
  obtain ⟨k, rfl⟩ : ∃ k, L = i + 1 + k := ⟨L - (i + 1), by omega⟩
  have hs : 2 ^ (32 * (i + 1 + k)) = 2 ^ (32 * i) * (2 ^ 32 * 2 ^ (32 * k)) := by
    rw [← Nat.pow_add, ← Nat.pow_add]; congr 1; ring
  have hq : x / 2 ^ (32 * (i + 1)) < 2 ^ (32 * k) := by
    rw [Nat.div_lt_iff_lt_mul (Nat.two_pow_pos _), ← Nat.pow_add]
    refine lt_of_lt_of_eq hx ?_
    congr 1; ring
  have h1 : x % 2 ^ (32 * i) < 2 ^ (32 * i) := Nat.mod_lt _ (Nat.two_pow_pos _)
  have h2 : v.toNat + 2 ^ 32 * (x / 2 ^ (32 * (i + 1))) + 1 ≤ 2 ^ 32 * 2 ^ (32 * k) := by
    have hv : v.toNat + 1 ≤ 2 ^ 32 := v.isLt
    calc v.toNat + 2 ^ 32 * (x / 2 ^ (32 * (i + 1))) + 1 ≤ 2 ^ 32 + 2 ^ 32 * (x / 2 ^ (32 * (i + 1))) := by omega
      _ = 2 ^ 32 * (x / 2 ^ (32 * (i + 1)) + 1) := by ring
      _ ≤ 2 ^ 32 * 2 ^ (32 * k) := Nat.mul_le_mul_left _ hq
  rw [setLimb_eq, hs]
  calc x % 2 ^ (32 * i) + 2 ^ (32 * i) * (v.toNat + 2 ^ 32 * (x / 2 ^ (32 * (i + 1))))
      < 2 ^ (32 * i) + 2 ^ (32 * i) * (v.toNat + 2 ^ 32 * (x / 2 ^ (32 * (i + 1)))) := by omega
    _ = 2 ^ (32 * i) * (v.toNat + 2 ^ 32 * (x / 2 ^ (32 * (i + 1))) + 1) := by ring
    _ ≤ 2 ^ (32 * i) * (2 ^ 32 * 2 ^ (32 * k)) := Nat.mul_le_mul_left _ h2

/-- L is 1 to 1024 (00_scope.md R5). -/
theorem L_bounds : 1 ≤ Config.L ∧ Config.L ≤ 1024 := by
  unfold Config.L
  omega

/-- W is 32 L (00_scope.md R5). -/
theorem W_eq : Config.W = 32 * Config.L := rfl

theorem bankTarget_lt (L : Nat) (k : Bank) (off i : Nat) (h : off / 4 = i) (hi : i < L) : bankTarget L k off = .limb k i := by
  subst h
  exact if_pos hi

theorem bankTarget_ge (L : Nat) (k : Bank) (off i : Nat) (h : off / 4 = i) (hi : L ≤ i) : bankTarget L k off = .reserved := by
  subst h
  exact if_neg (by omega)

theorem bankTarget_inv (L : Nat) (k' k : Bank) (off i : Nat) (h : bankTarget L k' off = .limb k i) :
    k = k' ∧ i = off / 4 ∧ off / 4 < L := by
  unfold bankTarget at h
  split at h
  · injection h with hk hi
    exact ⟨hk.symm, hi.symm, by assumption⟩
  · cases h

/-- Inside the four banks the map is the bank's own (20_memory.md R65). -/
theorem decodeAddr_in_bank (L : Nat) (k : Bank) (off : Nat) (h : off < 0x1000) :
    decodeAddr L (bankBase k + off) = bankTarget L k off := by
  have e : ∀ b : Nat, b + off - b = off := fun b => by omega
  cases k <;> unfold decodeAddr <;> unfold bankBase <;> dsimp only
  all_goals
    repeat rw [if_neg (by omega)]
    rw [if_pos (by omega), e]

/-- The word at limb `i` of a bank is that limb (20_memory.md R65). -/
theorem decodeAddr_bank (L : Nat) (hL : L ≤ 1024) (k : Bank) (i : Nat) (hi : i < L) :
    decodeAddr L (bankBase k + 4 * i) = .limb k i := by
  rw [decodeAddr_in_bank L k _ (by omega)]
  exact bankTarget_lt L k _ i (by omega) hi

/-- A word of a bank at or beyond limb L is reserved (20_memory.md R65). -/
theorem decodeAddr_tail (L : Nat) (k : Bank) (i : Nat) (hi : L ≤ i) (h4 : 4 * i < 0x1000) :
    decodeAddr L (bankBase k + 4 * i) = .reserved := by
  rw [decodeAddr_in_bank L k _ h4]
  exact bankTarget_ge L k _ i (by omega) hi

/-- No word below the banks is a limb (20_memory.md R65). -/
theorem decodeAddr_low (L addr : Nat) (k : Bank) (i : Nat) (h : addr < 0x1000) : decodeAddr L addr ≠ .limb k i := by
  unfold decodeAddr
  by_cases h0 : addr = 0x0000
  · rw [if_pos h0]; nofun
  by_cases h1 : addr = 0x0004
  · rw [if_neg h0, if_pos h1]; nofun
  by_cases h2 : addr = 0x0008
  · rw [if_neg h0, if_neg h1, if_pos h2]; nofun
  by_cases h3 : addr = 0x000C
  · rw [if_neg h0, if_neg h1, if_neg h2, if_pos h3]; nofun
  by_cases h4 : addr = 0x0010
  · rw [if_neg h0, if_neg h1, if_neg h2, if_neg h3, if_pos h4]; nofun
  by_cases h5 : addr = 0x0014
  · rw [if_neg h0, if_neg h1, if_neg h2, if_neg h3, if_neg h4, if_pos h5]; nofun
  by_cases h6 : addr = 0x0018
  · rw [if_neg h0, if_neg h1, if_neg h2, if_neg h3, if_neg h4, if_neg h5, if_pos h6]; nofun
  rw [if_neg h0, if_neg h1, if_neg h2, if_neg h3, if_neg h4, if_neg h5, if_neg h6, if_pos h]
  nofun

/-- Every word above the banks is reserved (20_memory.md R65). -/
theorem decodeAddr_high (L addr : Nat) (h : 0x5000 ≤ addr) : decodeAddr L addr = .reserved := by
  unfold decodeAddr
  repeat rw [if_neg (by omega)]

/-- The addresses of limbs: a word is limb `i` of bank `k` only at that bank's `i`-th word, and only for `i` below L. -/
theorem decodeAddr_limb_inv (L addr : Nat) (k : Bank) (i : Nat) (h : decodeAddr L addr = .limb k i) :
    i < L ∧ i = (addr - bankBase k) / 4 ∧ bankBase k ≤ addr ∧ addr < bankBase k + 0x1000 := by
  by_cases hlow : addr < 0x1000
  · exact absurd h (decodeAddr_low L addr k i hlow)
  by_cases hhigh : 0x5000 ≤ addr
  · rw [decodeAddr_high L addr hhigh] at h
    cases h
  obtain ⟨k', off, rfl, hoff⟩ : ∃ k' off, addr = bankBase k' + off ∧ off < 0x1000 := by
    by_cases h2 : addr < 0x2000
    · exact ⟨.a, addr - 0x1000, by unfold bankBase; dsimp only; omega, by omega⟩
    by_cases h3 : addr < 0x3000
    · exact ⟨.b, addr - 0x2000, by unfold bankBase; dsimp only; omega, by omega⟩
    by_cases h4 : addr < 0x4000
    · exact ⟨.n, addr - 0x3000, by unfold bankBase; dsimp only; omega, by omega⟩
    · exact ⟨.r, addr - 0x4000, by unfold bankBase; dsimp only; omega, by omega⟩
  rw [decodeAddr_in_bank L k' off hoff] at h
  obtain ⟨rfl, rfl, hL⟩ := bankTarget_inv _ _ _ _ _ h
  omega

end Sys2Proof.Machine
end

