-- ==== Sys2Proof/Laws/AddressMap.lean ====
section
/-! SUPPORT. The register map said once: what stands at each word of the window (20_memory.md R65), and what a host write does to
each kind of word (20_memory.md R64). -/

namespace Sys2Proof.Machine

/-- A reserved word of the map decodes to a reserved target (20_memory.md R65, R71). -/
theorem decodeAddr_of_reserved (L addr : Nat) (h4 : addr % 4 = 0) (h : ReservedWord L addr) :
    decodeAddr L addr = .reserved := by
  have tail : ∀ k, bankBase k + 4 * L ≤ addr → addr < bankBase k + 0x1000 → decodeAddr L addr = .reserved := by
    intro k h1 h2
    have hk : bankBase k % 4 = 0 := by cases k <;> rfl
    have e : addr = bankBase k + 4 * ((addr - bankBase k) / 4) := by omega
    rw [e]
    exact decodeAddr_tail L k _ (by omega) (by omega)
  rcases h with h | h | h | h | h | h
  · unfold decodeAddr
    iterate 7 rw [if_neg (by omega)]
    rw [if_pos (by omega)]
  · exact tail .a h.1 h.2
  · exact tail .b h.1 h.2
  · exact tail .n h.1 h.2
  · exact tail .r h.1 h.2
  · exact decodeAddr_high L addr h.1

/-- A word inside a bank is one of its limbs or one of its reserved words. -/
theorem decodeAddr_bank_cases (L addr : Nat) (k : Bank) (h4 : addr % 4 = 0) (h1 : bankBase k ≤ addr)
    (h2 : addr < bankBase k + 0x1000) :
    (∃ i, i < L ∧ addr = bankBase k + 4 * i ∧ decodeAddr L addr = .limb k i) ∨
      (bankBase k + 4 * L ≤ addr ∧ decodeAddr L addr = .reserved) := by
  have hk : bankBase k % 4 = 0 := by cases k <;> rfl
  have e : addr = bankBase k + 4 * ((addr - bankBase k) / 4) := by omega
  by_cases hi : (addr - bankBase k) / 4 < L
  · refine .inl ⟨_, hi, e, ?_⟩
    rw [e, decodeAddr_in_bank L k _ (by omega)]
    exact bankTarget_lt L k _ _ (by omega) (by omega)
  · refine .inr ⟨by omega, ?_⟩
    rw [e]
    exact decodeAddr_tail L k _ (by omega) (by omega)

/-- Every aligned word of the window is one of the seven registers, a limb of a bank, or reserved (20_memory.md R65). -/
theorem decodeAddr_cases (L addr : Nat) (h4 : addr % 4 = 0) (hw : addr < 0x8000) :
    (addr = 0x0000 ∧ decodeAddr L addr = .cmd) ∨ (addr = 0x0004 ∧ decodeAddr L addr = .status) ∨
      (addr = 0x0008 ∧ decodeAddr L addr = .ctrl) ∨ (addr = 0x000C ∧ decodeAddr L addr = .iters) ∨
      (addr = 0x0010 ∧ decodeAddr L addr = .bits) ∨ (addr = 0x0014 ∧ decodeAddr L addr = .seedLo) ∨
      (addr = 0x0018 ∧ decodeAddr L addr = .seedHi) ∨
      (∃ k i, i < L ∧ addr = bankBase k + 4 * i ∧ addr < bankBase k + 0x1000 ∧ decodeAddr L addr = .limb k i) ∨
      (ReservedWord L addr ∧ decodeAddr L addr = .reserved) := by
  by_cases h0 : addr = 0x0000
  · exact .inl ⟨h0, by subst h0; rfl⟩
  by_cases h1 : addr = 0x0004
  · exact .inr (.inl ⟨h1, by subst h1; rfl⟩)
  by_cases h2 : addr = 0x0008
  · exact .inr (.inr (.inl ⟨h2, by subst h2; rfl⟩))
  by_cases h3 : addr = 0x000C
  · exact .inr (.inr (.inr (.inl ⟨h3, by subst h3; rfl⟩)))
  by_cases h5 : addr = 0x0010
  · exact .inr (.inr (.inr (.inr (.inl ⟨h5, by subst h5; rfl⟩))))
  by_cases h6 : addr = 0x0014
  · exact .inr (.inr (.inr (.inr (.inr (.inl ⟨h6, by subst h6; rfl⟩)))))
  by_cases h7 : addr = 0x0018
  · exact .inr (.inr (.inr (.inr (.inr (.inr (.inl ⟨h7, by subst h7; rfl⟩))))))
  refine .inr (.inr (.inr (.inr (.inr (.inr (.inr ?_))))))
  have res : ReservedWord L addr →
      (∃ k i, i < L ∧ addr = bankBase k + 4 * i ∧ addr < bankBase k + 0x1000 ∧ decodeAddr L addr = .limb k i) ∨
        (ReservedWord L addr ∧ decodeAddr L addr = .reserved) :=
    fun h => .inr ⟨h, decodeAddr_of_reserved L addr h4 h⟩
  have bank : ∀ k, bankBase k ≤ addr → addr < bankBase k + 0x1000 → (bankBase k + 4 * L ≤ addr → ReservedWord L addr) →
      (∃ k i, i < L ∧ addr = bankBase k + 4 * i ∧ addr < bankBase k + 0x1000 ∧ decodeAddr L addr = .limb k i) ∨
        (ReservedWord L addr ∧ decodeAddr L addr = .reserved) := by
    intro k g1 g2 g3
    rcases decodeAddr_bank_cases L addr k h4 g1 g2 with ⟨i, hi, e, hd⟩ | ⟨ht, hd⟩
    · exact .inl ⟨k, i, hi, e, g2, hd⟩
    · exact .inr ⟨g3 ht, hd⟩
  by_cases c1 : addr < 0x1000
  · exact res (.inl ⟨by omega, c1⟩)
  by_cases c2 : addr < 0x2000
  · exact bank .a (by dsimp only [bankBase]; omega) c2 fun h => .inr (.inl ⟨h, c2⟩)
  by_cases c3 : addr < 0x3000
  · exact bank .b (by dsimp only [bankBase]; omega) c3 fun h => .inr (.inr (.inl ⟨h, c3⟩))
  by_cases c4 : addr < 0x4000
  · exact bank .n (by dsimp only [bankBase]; omega) c4 fun h => .inr (.inr (.inr (.inl ⟨h, c4⟩)))
  by_cases c5 : addr < 0x5000
  · exact bank .r (by dsimp only [bankBase]; omega) c5 fun h => .inr (.inr (.inr (.inr (.inl ⟨h, c5⟩))))
  · exact res (.inr (.inr (.inr (.inr (.inr ⟨by omega, hw⟩)))))

theorem memWrite_status (L addr : Nat) (v : Word) (s : State) (h : decodeAddr L addr = .status) :
    memWrite L addr v s = .next (writeStatus v s) := by
  simp only [memWrite, h]

theorem memWrite_reserved (L addr : Nat) (v : Word) (s : State) (h : decodeAddr L addr = .reserved) :
    memWrite L addr v s = .next s := by
  simp only [memWrite, h]

theorem memWrite_result (L addr i : Nat) (v : Word) (s : State) (h : decodeAddr L addr = .limb .r i) :
    memWrite L addr v s = .next s := by
  simp only [memWrite, h]

/-- While BUSY = 1 a write to any other word is dropped (20_memory.md R67). -/
theorem memWrite_busy (L addr : Nat) (v : Word) (s : State) (hb : s.busy = true) (h1 : decodeAddr L addr ≠ .status)
    (h2 : decodeAddr L addr ≠ .reserved) (h3 : ∀ i, decodeAddr L addr ≠ .limb .r i) :
    memWrite L addr v s = .next (dropWrite s) := by
  unfold memWrite
  cases hd : decodeAddr L addr with
  | status => exact absurd hd h1
  | reserved => exact absurd hd h2
  | limb k i =>
    cases k with
    | r => exact absurd hd (h3 i)
    | _ => simp [hb]
  | _ => simp [hb]

theorem memWrite_cmd (L : Nat) (v : Word) (s : State) (hb : s.busy = false) : memWrite L 0x0000 v s = writeCmd v s := by
  have h : decodeAddr L 0x0000 = .cmd := rfl
  simp [memWrite, h, hb]

/-- While BUSY = 0 a write to any word but CMD has its own effect (20_memory.md R64 lines 5 to 7). -/
theorem memWrite_idle (L addr : Nat) (v : Word) (s : State) (hb : s.busy = false) (h : decodeAddr L addr ≠ .cmd) :
    memWrite L addr v s = .next (writeTarget (decodeAddr L addr) v s) := by
  unfold memWrite
  cases hd : decodeAddr L addr with
  | cmd => exact absurd hd h
  | limb k i => cases k <;> simp [hb, writeTarget, writeLimb]
  | _ => simp [hb, writeTarget]

end Sys2Proof.Machine
end

