-- ==== Sys2Proof/Laws/Decode.lean ====
section
/-! SUPPORT. The encoder and the decoder on the nine commands (30_encoding.md R90, R91). -/

namespace Sys2Proof

theorem decodeOpcode_opcode (i : Instr) : decodeOpcode (opcode i) = .ok i := by
  cases i <;> rfl

theorem opcField_encode (i : Instr) : opcField (encode i) = opcode i := by
  cases i <;> rfl

theorem mbzField_encode (i : Instr) : mbzField (encode i) = 0 := by
  cases i <;> rfl

theorem decode_of_mbz_zero (v : Word) (h : mbzField v = 0) : decode v = decodeOpcode (opcField v) := if_pos h

theorem decode_of_mbz_set (v : Word) (h : mbzField v ≠ 0) : decode v = .error .mbzSet := if_neg h

theorem decode_encode (i : Instr) : decode (encode i) = .ok i := by
  rw [decode_of_mbz_zero _ (mbzField_encode i), opcField_encode, decodeOpcode_opcode]

/-- The opcodes are the row's values of 30_encoding.md R91, so no two commands share one. -/
theorem opcode_inj (i j : Instr) (h : opcode i = opcode j) : i = j := by
  have hi := decodeOpcode_opcode i
  rw [h, decodeOpcode_opcode] at hi
  injection hi with hi
  exact hi.symm

end Sys2Proof
end

