-- ==== Sys2Proof/Laws/State.lean ====
section
/-! SUPPORT. One lemma per field per update of the state, so that no proof unfolds a record update. -/

namespace Sys2Proof.Machine

@[simp] theorem writeStatus_regA (v : Word) (s : State) : (writeStatus v s).regA = s.regA := rfl
@[simp] theorem writeStatus_regB (v : Word) (s : State) : (writeStatus v s).regB = s.regB := rfl
@[simp] theorem writeStatus_regN (v : Word) (s : State) : (writeStatus v s).regN = s.regN := rfl
@[simp] theorem writeStatus_regR (v : Word) (s : State) : (writeStatus v s).regR = s.regR := rfl
@[simp] theorem writeStatus_iters (v : Word) (s : State) : (writeStatus v s).iters = s.iters := rfl
@[simp] theorem writeStatus_bits (v : Word) (s : State) : (writeStatus v s).bits = s.bits := rfl
@[simp] theorem writeStatus_seed (v : Word) (s : State) : (writeStatus v s).seed = s.seed := rfl
@[simp] theorem writeStatus_ie (v : Word) (s : State) : (writeStatus v s).ie = s.ie := rfl
@[simp] theorem writeStatus_busy (v : Word) (s : State) : (writeStatus v s).busy = s.busy := rfl
@[simp] theorem writeStatus_done (v : Word) (s : State) : (writeStatus v s).done = if v.getLsbD 1 then false else s.done := rfl
@[simp] theorem writeStatus_err (v : Word) (s : State) : (writeStatus v s).err = s.err := rfl
@[simp] theorem writeStatus_errcode (v : Word) (s : State) : (writeStatus v s).errcode = s.errcode := rfl
@[simp] theorem writeStatus_noinv (v : Word) (s : State) : (writeStatus v s).noinv = s.noinv := rfl
@[simp] theorem writeStatus_prime (v : Word) (s : State) : (writeStatus v s).prime = s.prime := rfl
@[simp] theorem writeStatus_ovr (v : Word) (s : State) : (writeStatus v s).ovr = if v.getLsbD 5 then false else s.ovr := rfl
@[simp] theorem writeStatus_rngrdy (v : Word) (s : State) : (writeStatus v s).rngrdy = s.rngrdy := rfl
@[simp] theorem writeStatus_cur (v : Word) (s : State) : (writeStatus v s).cur = s.cur := rfl
@[simp] theorem writeStatus_rng (v : Word) (s : State) : (writeStatus v s).rng = s.rng := rfl
@[simp] theorem writeStatus_search (v : Word) (s : State) : (writeStatus v s).search = s.search := rfl
@[simp] theorem writeStatus_script (v : Word) (s : State) : (writeStatus v s).script = s.script := rfl
@[simp] theorem writeStatus_reads (v : Word) (s : State) : (writeStatus v s).reads = s.reads := rfl
@[simp] theorem writeStatus_turns (v : Word) (s : State) : (writeStatus v s).turns = s.turns := rfl

@[simp] theorem writeCtrl_regA (v : Word) (s : State) : (writeCtrl v s).regA = s.regA := rfl
@[simp] theorem writeCtrl_regB (v : Word) (s : State) : (writeCtrl v s).regB = s.regB := rfl
@[simp] theorem writeCtrl_regN (v : Word) (s : State) : (writeCtrl v s).regN = s.regN := rfl
@[simp] theorem writeCtrl_regR (v : Word) (s : State) : (writeCtrl v s).regR = s.regR := rfl
@[simp] theorem writeCtrl_iters (v : Word) (s : State) : (writeCtrl v s).iters = s.iters := rfl
@[simp] theorem writeCtrl_bits (v : Word) (s : State) : (writeCtrl v s).bits = s.bits := rfl
@[simp] theorem writeCtrl_seed (v : Word) (s : State) : (writeCtrl v s).seed = s.seed := rfl
@[simp] theorem writeCtrl_ie (v : Word) (s : State) : (writeCtrl v s).ie = v.getLsbD 0 := rfl
@[simp] theorem writeCtrl_busy (v : Word) (s : State) : (writeCtrl v s).busy = s.busy := rfl
@[simp] theorem writeCtrl_done (v : Word) (s : State) : (writeCtrl v s).done = s.done := rfl
@[simp] theorem writeCtrl_err (v : Word) (s : State) : (writeCtrl v s).err = s.err := rfl
@[simp] theorem writeCtrl_errcode (v : Word) (s : State) : (writeCtrl v s).errcode = s.errcode := rfl
@[simp] theorem writeCtrl_noinv (v : Word) (s : State) : (writeCtrl v s).noinv = s.noinv := rfl
@[simp] theorem writeCtrl_prime (v : Word) (s : State) : (writeCtrl v s).prime = s.prime := rfl
@[simp] theorem writeCtrl_ovr (v : Word) (s : State) : (writeCtrl v s).ovr = s.ovr := rfl
@[simp] theorem writeCtrl_rngrdy (v : Word) (s : State) : (writeCtrl v s).rngrdy = s.rngrdy := rfl
@[simp] theorem writeCtrl_cur (v : Word) (s : State) : (writeCtrl v s).cur = s.cur := rfl
@[simp] theorem writeCtrl_rng (v : Word) (s : State) : (writeCtrl v s).rng = s.rng := rfl
@[simp] theorem writeCtrl_search (v : Word) (s : State) : (writeCtrl v s).search = s.search := rfl
@[simp] theorem writeCtrl_script (v : Word) (s : State) : (writeCtrl v s).script = s.script := rfl
@[simp] theorem writeCtrl_reads (v : Word) (s : State) : (writeCtrl v s).reads = s.reads := rfl
@[simp] theorem writeCtrl_turns (v : Word) (s : State) : (writeCtrl v s).turns = s.turns := rfl

@[simp] theorem dropWrite_regA (s : State) : (dropWrite s).regA = s.regA := rfl
@[simp] theorem dropWrite_regB (s : State) : (dropWrite s).regB = s.regB := rfl
@[simp] theorem dropWrite_regN (s : State) : (dropWrite s).regN = s.regN := rfl
@[simp] theorem dropWrite_regR (s : State) : (dropWrite s).regR = s.regR := rfl
@[simp] theorem dropWrite_iters (s : State) : (dropWrite s).iters = s.iters := rfl
@[simp] theorem dropWrite_bits (s : State) : (dropWrite s).bits = s.bits := rfl
@[simp] theorem dropWrite_seed (s : State) : (dropWrite s).seed = s.seed := rfl
@[simp] theorem dropWrite_ie (s : State) : (dropWrite s).ie = s.ie := rfl
@[simp] theorem dropWrite_busy (s : State) : (dropWrite s).busy = s.busy := rfl
@[simp] theorem dropWrite_done (s : State) : (dropWrite s).done = s.done := rfl
@[simp] theorem dropWrite_err (s : State) : (dropWrite s).err = s.err := rfl
@[simp] theorem dropWrite_errcode (s : State) : (dropWrite s).errcode = s.errcode := rfl
@[simp] theorem dropWrite_noinv (s : State) : (dropWrite s).noinv = s.noinv := rfl
@[simp] theorem dropWrite_prime (s : State) : (dropWrite s).prime = s.prime := rfl
@[simp] theorem dropWrite_ovr (s : State) : (dropWrite s).ovr = true := rfl
@[simp] theorem dropWrite_rngrdy (s : State) : (dropWrite s).rngrdy = s.rngrdy := rfl
@[simp] theorem dropWrite_cur (s : State) : (dropWrite s).cur = s.cur := rfl
@[simp] theorem dropWrite_rng (s : State) : (dropWrite s).rng = s.rng := rfl
@[simp] theorem dropWrite_search (s : State) : (dropWrite s).search = s.search := rfl
@[simp] theorem dropWrite_script (s : State) : (dropWrite s).script = s.script := rfl
@[simp] theorem dropWrite_reads (s : State) : (dropWrite s).reads = s.reads := rfl
@[simp] theorem dropWrite_turns (s : State) : (dropWrite s).turns = s.turns := rfl

@[simp] theorem writeSeedLo_regA (v : Word) (s : State) : (writeSeedLo v s).regA = s.regA := rfl
@[simp] theorem writeSeedLo_regB (v : Word) (s : State) : (writeSeedLo v s).regB = s.regB := rfl
@[simp] theorem writeSeedLo_regN (v : Word) (s : State) : (writeSeedLo v s).regN = s.regN := rfl
@[simp] theorem writeSeedLo_regR (v : Word) (s : State) : (writeSeedLo v s).regR = s.regR := rfl
@[simp] theorem writeSeedLo_iters (v : Word) (s : State) : (writeSeedLo v s).iters = s.iters := rfl
@[simp] theorem writeSeedLo_bits (v : Word) (s : State) : (writeSeedLo v s).bits = s.bits := rfl
@[simp] theorem writeSeedLo_seed (v : Word) (s : State) : (writeSeedLo v s).seed = s.seed.extractLsb' 32 32 ++ v := rfl
@[simp] theorem writeSeedLo_ie (v : Word) (s : State) : (writeSeedLo v s).ie = s.ie := rfl
@[simp] theorem writeSeedLo_busy (v : Word) (s : State) : (writeSeedLo v s).busy = s.busy := rfl
@[simp] theorem writeSeedLo_done (v : Word) (s : State) : (writeSeedLo v s).done = s.done := rfl
@[simp] theorem writeSeedLo_err (v : Word) (s : State) : (writeSeedLo v s).err = s.err := rfl
@[simp] theorem writeSeedLo_errcode (v : Word) (s : State) : (writeSeedLo v s).errcode = s.errcode := rfl
@[simp] theorem writeSeedLo_noinv (v : Word) (s : State) : (writeSeedLo v s).noinv = s.noinv := rfl
@[simp] theorem writeSeedLo_prime (v : Word) (s : State) : (writeSeedLo v s).prime = s.prime := rfl
@[simp] theorem writeSeedLo_ovr (v : Word) (s : State) : (writeSeedLo v s).ovr = s.ovr := rfl
@[simp] theorem writeSeedLo_rngrdy (v : Word) (s : State) : (writeSeedLo v s).rngrdy = s.rngrdy := rfl
@[simp] theorem writeSeedLo_cur (v : Word) (s : State) : (writeSeedLo v s).cur = s.cur := rfl
@[simp] theorem writeSeedLo_rng (v : Word) (s : State) : (writeSeedLo v s).rng = s.rng := rfl
@[simp] theorem writeSeedLo_search (v : Word) (s : State) : (writeSeedLo v s).search = s.search := rfl
@[simp] theorem writeSeedLo_script (v : Word) (s : State) : (writeSeedLo v s).script = s.script := rfl
@[simp] theorem writeSeedLo_reads (v : Word) (s : State) : (writeSeedLo v s).reads = s.reads := rfl
@[simp] theorem writeSeedLo_turns (v : Word) (s : State) : (writeSeedLo v s).turns = s.turns := rfl

@[simp] theorem writeSeedHi_regA (v : Word) (s : State) : (writeSeedHi v s).regA = s.regA := rfl
@[simp] theorem writeSeedHi_regB (v : Word) (s : State) : (writeSeedHi v s).regB = s.regB := rfl
@[simp] theorem writeSeedHi_regN (v : Word) (s : State) : (writeSeedHi v s).regN = s.regN := rfl
@[simp] theorem writeSeedHi_regR (v : Word) (s : State) : (writeSeedHi v s).regR = s.regR := rfl
@[simp] theorem writeSeedHi_iters (v : Word) (s : State) : (writeSeedHi v s).iters = s.iters := rfl
@[simp] theorem writeSeedHi_bits (v : Word) (s : State) : (writeSeedHi v s).bits = s.bits := rfl
@[simp] theorem writeSeedHi_seed (v : Word) (s : State) : (writeSeedHi v s).seed = v ++ s.seed.extractLsb' 0 32 := rfl
@[simp] theorem writeSeedHi_ie (v : Word) (s : State) : (writeSeedHi v s).ie = s.ie := rfl
@[simp] theorem writeSeedHi_busy (v : Word) (s : State) : (writeSeedHi v s).busy = s.busy := rfl
@[simp] theorem writeSeedHi_done (v : Word) (s : State) : (writeSeedHi v s).done = s.done := rfl
@[simp] theorem writeSeedHi_err (v : Word) (s : State) : (writeSeedHi v s).err = s.err := rfl
@[simp] theorem writeSeedHi_errcode (v : Word) (s : State) : (writeSeedHi v s).errcode = s.errcode := rfl
@[simp] theorem writeSeedHi_noinv (v : Word) (s : State) : (writeSeedHi v s).noinv = s.noinv := rfl
@[simp] theorem writeSeedHi_prime (v : Word) (s : State) : (writeSeedHi v s).prime = s.prime := rfl
@[simp] theorem writeSeedHi_ovr (v : Word) (s : State) : (writeSeedHi v s).ovr = s.ovr := rfl
@[simp] theorem writeSeedHi_rngrdy (v : Word) (s : State) : (writeSeedHi v s).rngrdy = s.rngrdy := rfl
@[simp] theorem writeSeedHi_cur (v : Word) (s : State) : (writeSeedHi v s).cur = s.cur := rfl
@[simp] theorem writeSeedHi_rng (v : Word) (s : State) : (writeSeedHi v s).rng = s.rng := rfl
@[simp] theorem writeSeedHi_search (v : Word) (s : State) : (writeSeedHi v s).search = s.search := rfl
@[simp] theorem writeSeedHi_script (v : Word) (s : State) : (writeSeedHi v s).script = s.script := rfl
@[simp] theorem writeSeedHi_reads (v : Word) (s : State) : (writeSeedHi v s).reads = s.reads := rfl
@[simp] theorem writeSeedHi_turns (v : Word) (s : State) : (writeSeedHi v s).turns = s.turns := rfl

@[simp] theorem clearForLaunch_regA (s : State) : (clearForLaunch s).regA = s.regA := rfl
@[simp] theorem clearForLaunch_regB (s : State) : (clearForLaunch s).regB = s.regB := rfl
@[simp] theorem clearForLaunch_regN (s : State) : (clearForLaunch s).regN = s.regN := rfl
@[simp] theorem clearForLaunch_regR (s : State) : (clearForLaunch s).regR = 0 := rfl
@[simp] theorem clearForLaunch_iters (s : State) : (clearForLaunch s).iters = s.iters := rfl
@[simp] theorem clearForLaunch_bits (s : State) : (clearForLaunch s).bits = s.bits := rfl
@[simp] theorem clearForLaunch_seed (s : State) : (clearForLaunch s).seed = s.seed := rfl
@[simp] theorem clearForLaunch_ie (s : State) : (clearForLaunch s).ie = s.ie := rfl
@[simp] theorem clearForLaunch_busy (s : State) : (clearForLaunch s).busy = s.busy := rfl
@[simp] theorem clearForLaunch_done (s : State) : (clearForLaunch s).done = false := rfl
@[simp] theorem clearForLaunch_err (s : State) : (clearForLaunch s).err = false := rfl
@[simp] theorem clearForLaunch_errcode (s : State) : (clearForLaunch s).errcode = .none := rfl
@[simp] theorem clearForLaunch_noinv (s : State) : (clearForLaunch s).noinv = false := rfl
@[simp] theorem clearForLaunch_prime (s : State) : (clearForLaunch s).prime = false := rfl
@[simp] theorem clearForLaunch_ovr (s : State) : (clearForLaunch s).ovr = s.ovr := rfl
@[simp] theorem clearForLaunch_rngrdy (s : State) : (clearForLaunch s).rngrdy = s.rngrdy := rfl
@[simp] theorem clearForLaunch_cur (s : State) : (clearForLaunch s).cur = s.cur := rfl
@[simp] theorem clearForLaunch_rng (s : State) : (clearForLaunch s).rng = s.rng := rfl
@[simp] theorem clearForLaunch_search (s : State) : (clearForLaunch s).search = s.search := rfl
@[simp] theorem clearForLaunch_script (s : State) : (clearForLaunch s).script = s.script := rfl
@[simp] theorem clearForLaunch_reads (s : State) : (clearForLaunch s).reads = s.reads := rfl
@[simp] theorem clearForLaunch_turns (s : State) : (clearForLaunch s).turns = s.turns := rfl

@[simp] theorem raiseError_regA (c : ErrCode) (s : State) : (raiseError c s).regA = s.regA := rfl
@[simp] theorem raiseError_regB (c : ErrCode) (s : State) : (raiseError c s).regB = s.regB := rfl
@[simp] theorem raiseError_regN (c : ErrCode) (s : State) : (raiseError c s).regN = s.regN := rfl
@[simp] theorem raiseError_regR (c : ErrCode) (s : State) : (raiseError c s).regR = s.regR := rfl
@[simp] theorem raiseError_iters (c : ErrCode) (s : State) : (raiseError c s).iters = s.iters := rfl
@[simp] theorem raiseError_bits (c : ErrCode) (s : State) : (raiseError c s).bits = s.bits := rfl
@[simp] theorem raiseError_seed (c : ErrCode) (s : State) : (raiseError c s).seed = s.seed := rfl
@[simp] theorem raiseError_ie (c : ErrCode) (s : State) : (raiseError c s).ie = s.ie := rfl
@[simp] theorem raiseError_busy (c : ErrCode) (s : State) : (raiseError c s).busy = s.busy := rfl
@[simp] theorem raiseError_done (c : ErrCode) (s : State) : (raiseError c s).done = true := rfl
@[simp] theorem raiseError_err (c : ErrCode) (s : State) : (raiseError c s).err = true := rfl
@[simp] theorem raiseError_errcode (c : ErrCode) (s : State) : (raiseError c s).errcode = c := rfl
@[simp] theorem raiseError_noinv (c : ErrCode) (s : State) : (raiseError c s).noinv = s.noinv := rfl
@[simp] theorem raiseError_prime (c : ErrCode) (s : State) : (raiseError c s).prime = s.prime := rfl
@[simp] theorem raiseError_ovr (c : ErrCode) (s : State) : (raiseError c s).ovr = s.ovr := rfl
@[simp] theorem raiseError_rngrdy (c : ErrCode) (s : State) : (raiseError c s).rngrdy = s.rngrdy := rfl
@[simp] theorem raiseError_cur (c : ErrCode) (s : State) : (raiseError c s).cur = s.cur := rfl
@[simp] theorem raiseError_rng (c : ErrCode) (s : State) : (raiseError c s).rng = s.rng := rfl
@[simp] theorem raiseError_search (c : ErrCode) (s : State) : (raiseError c s).search = s.search := rfl
@[simp] theorem raiseError_script (c : ErrCode) (s : State) : (raiseError c s).script = s.script := rfl
@[simp] theorem raiseError_reads (c : ErrCode) (s : State) : (raiseError c s).reads = s.reads := rfl
@[simp] theorem raiseError_turns (c : ErrCode) (s : State) : (raiseError c s).turns = s.turns := rfl

@[simp] theorem startCommand_regA (i : Instr) (s : State) : (startCommand i s).regA = s.regA := rfl
@[simp] theorem startCommand_regB (i : Instr) (s : State) : (startCommand i s).regB = s.regB := rfl
@[simp] theorem startCommand_regN (i : Instr) (s : State) : (startCommand i s).regN = s.regN := rfl
@[simp] theorem startCommand_regR (i : Instr) (s : State) : (startCommand i s).regR = s.regR := rfl
@[simp] theorem startCommand_iters (i : Instr) (s : State) : (startCommand i s).iters = s.iters := rfl
@[simp] theorem startCommand_bits (i : Instr) (s : State) : (startCommand i s).bits = s.bits := rfl
@[simp] theorem startCommand_seed (i : Instr) (s : State) : (startCommand i s).seed = s.seed := rfl
@[simp] theorem startCommand_ie (i : Instr) (s : State) : (startCommand i s).ie = s.ie := rfl
@[simp] theorem startCommand_busy (i : Instr) (s : State) : (startCommand i s).busy = true := rfl
@[simp] theorem startCommand_done (i : Instr) (s : State) : (startCommand i s).done = s.done := rfl
@[simp] theorem startCommand_err (i : Instr) (s : State) : (startCommand i s).err = s.err := rfl
@[simp] theorem startCommand_errcode (i : Instr) (s : State) : (startCommand i s).errcode = s.errcode := rfl
@[simp] theorem startCommand_noinv (i : Instr) (s : State) : (startCommand i s).noinv = s.noinv := rfl
@[simp] theorem startCommand_prime (i : Instr) (s : State) : (startCommand i s).prime = s.prime := rfl
@[simp] theorem startCommand_ovr (i : Instr) (s : State) : (startCommand i s).ovr = s.ovr := rfl
@[simp] theorem startCommand_rngrdy (i : Instr) (s : State) : (startCommand i s).rngrdy = s.rngrdy := rfl
@[simp] theorem startCommand_cur (i : Instr) (s : State) : (startCommand i s).cur = opcode i := rfl
@[simp] theorem startCommand_rng (i : Instr) (s : State) : (startCommand i s).rng = s.rng := rfl
@[simp] theorem startCommand_search (i : Instr) (s : State) : (startCommand i s).search = none := rfl
@[simp] theorem startCommand_script (i : Instr) (s : State) : (startCommand i s).script = s.script := rfl
@[simp] theorem startCommand_reads (i : Instr) (s : State) : (startCommand i s).reads = s.reads := rfl
@[simp] theorem startCommand_turns (i : Instr) (s : State) : (startCommand i s).turns = s.turns := rfl

@[simp] theorem complete_regA (s : State) : (complete s).regA = s.regA := rfl
@[simp] theorem complete_regB (s : State) : (complete s).regB = s.regB := rfl
@[simp] theorem complete_regN (s : State) : (complete s).regN = s.regN := rfl
@[simp] theorem complete_regR (s : State) : (complete s).regR = s.regR := rfl
@[simp] theorem complete_iters (s : State) : (complete s).iters = s.iters := rfl
@[simp] theorem complete_bits (s : State) : (complete s).bits = s.bits := rfl
@[simp] theorem complete_seed (s : State) : (complete s).seed = s.seed := rfl
@[simp] theorem complete_ie (s : State) : (complete s).ie = s.ie := rfl
@[simp] theorem complete_busy (s : State) : (complete s).busy = false := rfl
@[simp] theorem complete_done (s : State) : (complete s).done = true := rfl
@[simp] theorem complete_err (s : State) : (complete s).err = s.err := rfl
@[simp] theorem complete_errcode (s : State) : (complete s).errcode = s.errcode := rfl
@[simp] theorem complete_noinv (s : State) : (complete s).noinv = s.noinv := rfl
@[simp] theorem complete_prime (s : State) : (complete s).prime = s.prime := rfl
@[simp] theorem complete_ovr (s : State) : (complete s).ovr = s.ovr := rfl
@[simp] theorem complete_rngrdy (s : State) : (complete s).rngrdy = s.rngrdy := rfl
@[simp] theorem complete_cur (s : State) : (complete s).cur = s.cur := rfl
@[simp] theorem complete_rng (s : State) : (complete s).rng = s.rng := rfl
@[simp] theorem complete_search (s : State) : (complete s).search = none := rfl
@[simp] theorem complete_script (s : State) : (complete s).script = s.script := rfl
@[simp] theorem complete_reads (s : State) : (complete s).reads = s.reads := rfl
@[simp] theorem complete_turns (s : State) : (complete s).turns = s.turns := rfl

@[simp] theorem recordRead_regA (v : Word) (s : State) : (recordRead v s).regA = s.regA := rfl
@[simp] theorem recordRead_regB (v : Word) (s : State) : (recordRead v s).regB = s.regB := rfl
@[simp] theorem recordRead_regN (v : Word) (s : State) : (recordRead v s).regN = s.regN := rfl
@[simp] theorem recordRead_regR (v : Word) (s : State) : (recordRead v s).regR = s.regR := rfl
@[simp] theorem recordRead_iters (v : Word) (s : State) : (recordRead v s).iters = s.iters := rfl
@[simp] theorem recordRead_bits (v : Word) (s : State) : (recordRead v s).bits = s.bits := rfl
@[simp] theorem recordRead_seed (v : Word) (s : State) : (recordRead v s).seed = s.seed := rfl
@[simp] theorem recordRead_ie (v : Word) (s : State) : (recordRead v s).ie = s.ie := rfl
@[simp] theorem recordRead_busy (v : Word) (s : State) : (recordRead v s).busy = s.busy := rfl
@[simp] theorem recordRead_done (v : Word) (s : State) : (recordRead v s).done = s.done := rfl
@[simp] theorem recordRead_err (v : Word) (s : State) : (recordRead v s).err = s.err := rfl
@[simp] theorem recordRead_errcode (v : Word) (s : State) : (recordRead v s).errcode = s.errcode := rfl
@[simp] theorem recordRead_noinv (v : Word) (s : State) : (recordRead v s).noinv = s.noinv := rfl
@[simp] theorem recordRead_prime (v : Word) (s : State) : (recordRead v s).prime = s.prime := rfl
@[simp] theorem recordRead_ovr (v : Word) (s : State) : (recordRead v s).ovr = s.ovr := rfl
@[simp] theorem recordRead_rngrdy (v : Word) (s : State) : (recordRead v s).rngrdy = s.rngrdy := rfl
@[simp] theorem recordRead_cur (v : Word) (s : State) : (recordRead v s).cur = s.cur := rfl
@[simp] theorem recordRead_rng (v : Word) (s : State) : (recordRead v s).rng = s.rng := rfl
@[simp] theorem recordRead_search (v : Word) (s : State) : (recordRead v s).search = s.search := rfl
@[simp] theorem recordRead_script (v : Word) (s : State) : (recordRead v s).script = s.script := rfl
@[simp] theorem recordRead_reads (v : Word) (s : State) : (recordRead v s).reads = v :: s.reads := rfl
@[simp] theorem recordRead_turns (v : Word) (s : State) : (recordRead v s).turns = s.turns := rfl

@[simp] theorem popTurn_regA (s : State) : (popTurn s).regA = s.regA := rfl
@[simp] theorem popTurn_regB (s : State) : (popTurn s).regB = s.regB := rfl
@[simp] theorem popTurn_regN (s : State) : (popTurn s).regN = s.regN := rfl
@[simp] theorem popTurn_regR (s : State) : (popTurn s).regR = s.regR := rfl
@[simp] theorem popTurn_iters (s : State) : (popTurn s).iters = s.iters := rfl
@[simp] theorem popTurn_bits (s : State) : (popTurn s).bits = s.bits := rfl
@[simp] theorem popTurn_seed (s : State) : (popTurn s).seed = s.seed := rfl
@[simp] theorem popTurn_ie (s : State) : (popTurn s).ie = s.ie := rfl
@[simp] theorem popTurn_busy (s : State) : (popTurn s).busy = s.busy := rfl
@[simp] theorem popTurn_done (s : State) : (popTurn s).done = s.done := rfl
@[simp] theorem popTurn_err (s : State) : (popTurn s).err = s.err := rfl
@[simp] theorem popTurn_errcode (s : State) : (popTurn s).errcode = s.errcode := rfl
@[simp] theorem popTurn_noinv (s : State) : (popTurn s).noinv = s.noinv := rfl
@[simp] theorem popTurn_prime (s : State) : (popTurn s).prime = s.prime := rfl
@[simp] theorem popTurn_ovr (s : State) : (popTurn s).ovr = s.ovr := rfl
@[simp] theorem popTurn_rngrdy (s : State) : (popTurn s).rngrdy = s.rngrdy := rfl
@[simp] theorem popTurn_cur (s : State) : (popTurn s).cur = s.cur := rfl
@[simp] theorem popTurn_rng (s : State) : (popTurn s).rng = s.rng := rfl
@[simp] theorem popTurn_search (s : State) : (popTurn s).search = s.search := rfl
@[simp] theorem popTurn_script (s : State) : (popTurn s).script = s.script := rfl
@[simp] theorem popTurn_reads (s : State) : (popTurn s).reads = s.reads := rfl
@[simp] theorem popTurn_turns (s : State) : (popTurn s).turns = s.turns.tail := rfl

end Sys2Proof.Machine
end

