-- ==== Sys2Proof/Laws/Ops.lean ====
section
/-! SUPPORT. What each shared operation can do, said once. -/

namespace Sys2Proof.Machine

/-- A draw is below its bound (00_scope.md R13). -/
theorem rngNext_lt (S : RngState) (m : Nat) (hm : 0 < m) : (rngNext S m).1 < m := by
  unfold rngNext
  split <;> exact Nat.mod_lt _ hm

/-- A queued draw is the one delivered, and the next draw is the next queued one (00_scope.md R13; log 2). -/
theorem rngNext_queued (d : Nat) (ds : List Nat) (c m : Nat) :
    rngNext ⟨d :: ds, c⟩ m = (d % m, ⟨ds, c⟩) := rfl

/-- The launch check reads N, ITERS, BITS and RNGRDY, nothing else (30_encoding.md R95). -/
theorem launchCheck_congr (W : Nat) (i : Instr) (s t : State) (hN : t.regN = s.regN) (hI : t.iters = s.iters)
    (hB : t.bits = s.bits) (hR : t.rngrdy = s.rngrdy) : launchCheck W i t = launchCheck W i s := by
  cases i <;> simp only [launchCheck, hN, hI, hB, hR]

theorem launch_passed (i : Instr) (s : State) : launch i .none s = startCommand i (clearForLaunch s) := if_pos rfl

theorem launch_failed (i : Instr) (c : ErrCode) (s : State) (h : c ≠ .none) :
    launch i c s = raiseError c (clearForLaunch s) := if_neg h

/-- A launch either starts the command or ends it with an error, and which of the two says its check (30_encoding.md R94). -/
theorem launch_cases (i : Instr) (c : ErrCode) (s : State) :
    (c = .none ∧ launch i c s = startCommand i (clearForLaunch s)) ∨
      (c ≠ .none ∧ launch i c s = raiseError c (clearForLaunch s)) := by
  by_cases h : c = .none
  · exact .inl ⟨h, if_pos h⟩
  · exact .inr ⟨h, if_neg h⟩

theorem runCommand_idle (i : Instr) (work : State → State) (s : State) (h : s.busy = false) :
    runCommand i work s = .next (launch i (launchCheck Config.W i s) s) := by
  simp [runCommand, h]

theorem runCommand_busy (i : Instr) (work : State → State) (s : State) (h : s.busy = true)
    (hc : launchCheck Config.W i s = .none) : runCommand i work s = .next (work s) := by
  simp [runCommand, h, hc]

theorem runCommand_broken (i : Instr) (work : State → State) (s : State) (h : s.busy = true)
    (hc : launchCheck Config.W i s ≠ .none) :
    runCommand i work s = .fault (.launchCheckBroken (launchCheck Config.W i s)) := by
  unfold runCommand
  rw [if_pos h]
  split
  · contradiction
  · rfl

/-- Everything a command that answers a next state can have done: its launch, or the engine's step. -/
theorem runCommand_next (i : Instr) (work : State → State) (s t : State) (h : runCommand i work s = .next t) :
    (s.busy = false ∧ t = launch i (launchCheck Config.W i s) s) ∨
      (s.busy = true ∧ launchCheck Config.W i s = .none ∧ t = work s) := by
  cases hb : s.busy
  · rw [runCommand_idle i work s hb] at h
    injection h with h
    exact .inl ⟨rfl, h.symm⟩
  · by_cases hc : launchCheck Config.W i s = .none
    · rw [runCommand_busy i work s hb hc] at h
      injection h with h
      exact .inr ⟨rfl, hc, h.symm⟩
    · rw [runCommand_broken i work s hb hc] at h
      cases h

/-- A command never refuses. -/
theorem runCommand_not_refused (i : Instr) (work : State → State) (s : State) (e : Refusal) :
    runCommand i work s ≠ .refused e := by
  unfold runCommand
  split
  · split <;> nofun
  · nofun

end Sys2Proof.Machine
end

