-- ==== Sys2Proof/Laws/Exec.lean ====
section
/-! SUPPORT. What `exec` can do: the launch of any command, and for each command the engine's step on it. -/

namespace Sys2Proof.Machine

/-- The engine's step on a command in flight, as the commands' own definitions give it. -/
def engineWork (i : Instr) (s : State) : State :=
  match i with
  | .gcd => complete { s with regR := gcdEuclid s.regA s.regB }
  | .modinv => complete { s with regR := (modInv s.regA s.regN).1, noinv := (modInv s.regA s.regN).2 }
  | .powmod => complete { s with regR := powMod s.regA s.regB s.regN }
  | .isprime =>
    complete { s with
      regR := if (isPrime s.regN s.iters.toNat s.rng).1 then 1 else 0
      prime := (isPrime s.regN s.iters.toNat s.rng).1
      rng := (isPrime s.regN s.iters.toNat s.rng).2 }
  | .mkprime =>
    match tryCandidate s.bits.toNat s.iters.toNat (s.search.getD s.rng) with
    | (some c, S) => complete { s with regR := c, rng := S }
    | (none, S) => { s with search := some S }
  | .modred => complete { s with regR := s.regA % s.regN }
  | .mulmod => complete { s with regR := s.regA * s.regB % s.regN }
  | .rnginit => complete { s with rng := Config.rngInit s.seed, rngrdy := true, regR := 0 }
  | .rngclear => complete { s with rngrdy := false, regR := 0 }

/-- Every arm of `exec` is `runCommand` over the engine's step on its command. -/
theorem exec_eq (i : Instr) (s : State) : exec i s = runCommand i (engineWork i) s := by
  cases i <;> rfl

theorem exec_idle (i : Instr) (s : State) (h : s.busy = false) :
    exec i s = .next (launch i (launchCheck Config.W i s) s) := by
  rw [exec_eq, runCommand_idle _ _ _ h]

theorem exec_busy (i : Instr) (s : State) (h : s.busy = true) (hc : launchCheck Config.W i s = .none) :
    exec i s = .next (engineWork i s) := by
  rw [exec_eq, runCommand_busy _ _ _ h hc]

/-- Everything `exec` can have done when it answers a next state. -/
theorem exec_next (i : Instr) (s t : State) (h : exec i s = .next t) :
    (s.busy = false ∧ t = launch i (launchCheck Config.W i s) s) ∨
      (s.busy = true ∧ launchCheck Config.W i s = .none ∧ t = engineWork i s) :=
  runCommand_next i _ s t (by rw [← exec_eq]; exact h)

end Sys2Proof.Machine
end

