-- ==== Sys2Proof/Laws/Flags.lean ====
section
/-! SUPPORT. The fields of STATUS and CTRL as the host reads them (10_state.md R26, R32). -/

namespace Sys2Proof.Machine

theorem flagAt_lt (k : Nat) (f : Bool) : flagAt k f ≤ 2 ^ k := by
  cases f <;> simp [flagAt]

theorem errcode_le (c : ErrCode) : c.toNat ≤ 4 := by
  cases c <;> decide

theorem errcode_zero_iff (c : ErrCode) : c.toNat = 0 ↔ c = .none := by
  cases c <;> decide

/-- The number STATUS holds is the sum of its fields, each at its place (10_state.md R26). -/
theorem statusWord_toNat (s : State) : (statusWord s).toNat =
    flagAt 0 s.busy + flagAt 1 s.done + flagAt 2 s.err + flagAt 3 s.noinv + flagAt 4 s.prime + flagAt 5 s.ovr
      + flagAt 6 s.rngrdy + 2 ^ 8 * s.errcode.toNat := by
  unfold statusWord
  rw [BitVec.toNat_ofNat]
  apply Nat.mod_eq_of_lt
  have h0 := flagAt_lt 0 s.busy
  have h1 := flagAt_lt 1 s.done
  have h2 := flagAt_lt 2 s.err
  have h3 := flagAt_lt 3 s.noinv
  have h4 := flagAt_lt 4 s.prime
  have h5 := flagAt_lt 5 s.ovr
  have h6 := flagAt_lt 6 s.rngrdy
  have h7 := errcode_le s.errcode
  omega

/-- Every field of STATUS reads at its place and the reserved bits read 0 (10_state.md R26). -/
theorem statusWord_fields (s : State) :
    (statusWord s).getLsbD 0 = s.busy ∧ (statusWord s).getLsbD 1 = s.done ∧ (statusWord s).getLsbD 2 = s.err ∧
      (statusWord s).getLsbD 3 = s.noinv ∧ (statusWord s).getLsbD 4 = s.prime ∧ (statusWord s).getLsbD 5 = s.ovr ∧
      (statusWord s).getLsbD 6 = s.rngrdy ∧ (statusWord s).getLsbD 7 = false ∧
      (statusWord s).toNat / 2 ^ 8 = s.errcode.toNat ∧ (statusWord s).toNat < 2 ^ 12 := by
  unfold statusWord
  generalize s.busy = b0
  generalize s.done = b1
  generalize s.err = b2
  generalize s.noinv = b3
  generalize s.prime = b4
  generalize s.ovr = b5
  generalize s.rngrdy = b6
  generalize s.errcode = c
  revert b0 b1 b2 b3 b4 b5 b6
  cases c <;> decide

theorem ctrlWord_eq (s : State) : ctrlWord s = if s.ie then 1 else 0 := by
  unfold ctrlWord
  cases s.ie <;> rfl

end Sys2Proof.Machine
end

