-- ==== Sys2Proof/Laws/PerInstr.lean ====
section
/-! SUPPORT. Statements made once per command, about the command as syntax. -/

namespace Sys2Proof.Laws

/-- The encoding of one command (30_encoding.md R90, R91): it is well formed, its word has a zero MBZ field above its opcode, the
decoder reads it back, and it is the only command with that opcode. -/
def Encoding.Statement (i : Instr) : Prop :=
  i.wellFormed = true ∧ mbzField (encode i) = 0 ∧ opcField (encode i) = opcode i ∧ decode (encode i) = .ok i ∧
    ∀ j : Instr, opcode j = opcode i → j = i

theorem Encoding.of_wellFormed (i : Instr) (h : i.wellFormed = true) : Encoding.Statement i :=
  ⟨h, mbzField_encode i, opcField_encode i, decode_encode i, fun j => opcode_inj j i⟩

theorem Encoding.gcd : Encoding.Statement .gcd := Encoding.of_wellFormed _ rfl
theorem Encoding.modinv : Encoding.Statement .modinv := Encoding.of_wellFormed _ rfl
theorem Encoding.powmod : Encoding.Statement .powmod := Encoding.of_wellFormed _ rfl
theorem Encoding.isprime : Encoding.Statement .isprime := Encoding.of_wellFormed _ rfl
theorem Encoding.mkprime : Encoding.Statement .mkprime := Encoding.of_wellFormed _ rfl
theorem Encoding.modred : Encoding.Statement .modred := Encoding.of_wellFormed _ rfl
theorem Encoding.mulmod : Encoding.Statement .mulmod := Encoding.of_wellFormed _ rfl
theorem Encoding.rnginit : Encoding.Statement .rnginit := Encoding.of_wellFormed _ rfl
theorem Encoding.rngclear : Encoding.Statement .rngclear := Encoding.of_wellFormed _ rfl

end Sys2Proof.Laws
end

