-- ==== Sys2Proof/Laws/Prime.lean ====
section
/-! SUPPORT. What one candidate of the MKPRIME loop can come to (45_mkprime.md R202, R206). -/

namespace Sys2Proof.Machine

/-- A candidate that is too short costs its own draw. -/
theorem tryCandidate_short (bits iters c : Nat) (S S' : RngState) (hd : randBits S bits = (c, S')) (hl : bitLength c ≠ bits) :
    tryCandidate bits iters S = (none, S') := by
  simp only [tryCandidate, hd, if_neg hl]

/-- A candidate of the right length that fails its test costs the draws of the test as well. -/
theorem tryCandidate_failed (bits iters c : Nat) (S S' S'' : RngState) (hd : randBits S bits = (c, S'))
    (hl : bitLength c = bits) (hp : isPrime c iters S' = (false, S'')) : tryCandidate bits iters S = (none, S'') := by
  simp [tryCandidate, hd, hl, hp]

/-- A candidate of the right length that passes its test is the prime found. -/
theorem tryCandidate_passed (bits iters c : Nat) (S S' S'' : RngState) (hd : randBits S bits = (c, S'))
    (hl : bitLength c = bits) (hp : isPrime c iters S' = (true, S'')) : tryCandidate bits iters S = (some c, S'') := by
  simp [tryCandidate, hd, hl, hp]

/-- The prime found is the number drawn, has the right length, and passed its test on the draws that follow its own. -/
theorem tryCandidate_some (bits iters c : Nat) (S S'' : RngState) (h : tryCandidate bits iters S = (some c, S'')) :
    c = (randBits S bits).1 ∧ bitLength c = bits ∧ isPrime c iters (randBits S bits).2 = (true, S'') := by
  rcases hd : randBits S bits with ⟨d, S'⟩
  by_cases hl : bitLength d = bits
  · rcases hp : isPrime d iters S' with ⟨v, T⟩
    cases v
    · rw [tryCandidate_failed bits iters d S S' T hd hl hp] at h
      cases h
    · rw [tryCandidate_passed bits iters d S S' T hd hl hp] at h
      cases h
      exact ⟨rfl, hl, hp⟩
  · rw [tryCandidate_short bits iters d S S' hd hl] at h
    cases h

end Sys2Proof.Machine
end

