-- ==== Sys2Proof/Laws/Run.lean ====
section
/-! SUPPORT. Runs of the machine, one step at a time. -/

namespace Sys2Proof.Machine

theorem run_zero (s : State) : runSteps 0 s = .next s := rfl

theorem run_succ_next (k : Nat) (s t : State) (h : step s = .next t) : runSteps (k + 1) s = runSteps k t := by
  have h' : core.step s = .next t := h
  simp only [runSteps, Host.Core.run, h']
  rfl

theorem run_succ_fault (k : Nat) (s : State) (f : Fault) (h : step s = .fault f) : runSteps (k + 1) s = .fault f := by
  have h' : core.step s = .fault f := h
  simp only [runSteps, Host.Core.run, h']
  rfl

theorem run_succ_refused (k : Nat) (s : State) (e : Refusal) (h : step s = .refused e) :
    runSteps (k + 1) s = .refused e := by
  have h' : core.step s = .refused e := h
  simp only [runSteps, Host.Core.run, h']
  rfl

/-- A run that answers a next state took a first step that did. -/
theorem run_succ_inv (k : Nat) (s t : State) (h : runSteps (k + 1) s = .next t) :
    ∃ u, step s = .next u ∧ runSteps k u = .next t := by
  cases hs : step s with
  | next u => exact ⟨u, rfl, by rw [← run_succ_next k s u hs]; exact h⟩
  | fault f => rw [run_succ_fault k s f hs] at h; cases h
  | refused e => rw [run_succ_refused k s e hs] at h; cases h

/-- A run in two parts. -/
theorem run_add (j k : Nat) (s u : State) (h : runSteps j s = .next u) : runSteps (j + k) s = runSteps k u := by
  induction j generalizing s with
  | zero =>
    rw [run_zero] at h
    injection h with h
    subst h
    rw [Nat.zero_add]
  | succ j ih =>
    obtain ⟨t, hst, hr⟩ := run_succ_inv j s u h
    rw [show j + 1 + k = j + k + 1 by omega, run_succ_next _ s t hst, ih t hr]

end Sys2Proof.Machine
end

