-- ==== Sys2Proof/Laws/Step.lean ====
section
/-! SUPPORT. What a host write, a host turn and a step can do, said once. -/

namespace Sys2Proof.Machine

theorem accessRefusal_eq_none (addr width : Nat) :
    accessRefusal addr width = none ↔ width = 4 ∧ addr % 4 = 0 ∧ addr < 0x8000 := by
  unfold accessRefusal accessWidthOk accessAligned accessInWindow windowBytes
  split_ifs with h1 h2 h3 <;> simp_all

/-- The refusal of each access the bus cannot carry (20_memory.md R69). -/
theorem accessRefusal_eq (addr width : Nat) : accessRefusal addr width =
    if width ≠ 4 then some .accessWidth
    else if addr % 4 ≠ 0 then some .accessMisaligned
    else if 0x8000 ≤ addr then some .accessOutsideWindow
    else none := by
  unfold accessRefusal accessWidthOk accessAligned accessInWindow windowBytes
  by_cases h1 : width = 4 <;> by_cases h2 : addr % 4 = 0 <;> by_cases h3 : 0x8000 ≤ addr <;> simp [h1, h2, h3]

/-- Everything a write to CMD in IDLE can do: run a legal word's command, or end with ILLCMD (30_encoding.md R94). -/
theorem writeCmd_cases (v : Word) (s : State) :
    (∃ i, decode v = .ok i ∧ writeCmd v s = exec i s) ∨
      (∃ e, decode v = .error e ∧ writeCmd v s = .next (launchIllegal s)) := by
  unfold writeCmd
  cases h : decode v with
  | ok i => exact .inl ⟨i, rfl, rfl⟩
  | error e => exact .inr ⟨e, rfl, rfl⟩

/-- Everything a host write can do, by the first matching line of 20_memory.md R64. -/
theorem memWrite_cases (L addr : Nat) (v : Word) (s : State) :
    (decodeAddr L addr = .status ∧ memWrite L addr v s = .next (writeStatus v s)) ∨
      ((decodeAddr L addr = .reserved ∨ ∃ i, decodeAddr L addr = .limb .r i) ∧ memWrite L addr v s = .next s) ∨
      (s.busy = true ∧ memWrite L addr v s = .next (dropWrite s)) ∨
      (s.busy = false ∧ decodeAddr L addr = .cmd ∧ memWrite L addr v s = writeCmd v s) ∨
      (s.busy = false ∧ memWrite L addr v s = .next (writeTarget (decodeAddr L addr) v s)) := by
  unfold memWrite
  cases decodeAddr L addr with
  | limb k i => cases k <;> cases s.busy <;> simp
  | _ => cases s.busy <;> simp

/-- Everything a step can be: one turn of the host, the engine or reset (20_memory.md R73). -/
theorem step_cases (s : State) :
    (nextAgent s = .host ∧ step s = hostTurn Config.L (popTurn s)) ∨
      (nextAgent s = .engine ∧ step s = engineTurn (popTurn s)) ∨
      (nextAgent s = .reset ∧ step s = .next (resetTurn (popTurn s))) := by
  unfold step takeTurn
  cases nextAgent s <;> simp

/-- Everything a host turn that answers a next state can have done. -/
theorem hostTurn_next (L : Nat) (s t : State) (h : hostTurn L s = .next t) :
    (s.script = [] ∧ t = s) ∨
      (∃ addr rest, s.script = .read addr 4 :: rest ∧ addr % 4 = 0 ∧ addr < 0x8000 ∧
        t = recordRead (memRead L addr s) { s with script := rest }) ∨
      (∃ addr v rest, s.script = .write addr 4 v :: rest ∧ addr % 4 = 0 ∧ addr < 0x8000 ∧
        memWrite L addr v { s with script := rest } = .next t) ∨
      (∃ rest, s.script = .wait :: rest ∧ t = recordRead (memRead L 0x0004 s) (if s.busy then s else { s with script := rest })) ∨
      (∃ rest, s.script = .waitIrq :: rest ∧ t = if irq s then { s with script := rest } else s) := by
  unfold hostTurn at h
  split at h
  case h_1 hs =>
    injection h with h
    exact .inl ⟨hs, h.symm⟩
  case h_2 addr width rest hs =>
    split at h
    · cases h
    case h_2 hr =>
      obtain ⟨rfl, h4, hw⟩ := (accessRefusal_eq_none addr width).1 hr
      injection h with h
      exact .inr (.inl ⟨addr, rest, hs, h4, hw, h.symm⟩)
  case h_3 addr width v rest hs =>
    split at h
    · cases h
    case h_2 hr =>
      obtain ⟨rfl, h4, hw⟩ := (accessRefusal_eq_none addr width).1 hr
      exact .inr (.inr (.inl ⟨addr, v, rest, hs, h4, hw, h⟩))
  case h_4 rest hs =>
    injection h with h
    refine .inr (.inr (.inr (.inl ⟨rest, hs, ?_⟩)))
    have hbit : (memRead L 0x0004 s).getLsbD 0 = s.busy := (statusWord_fields s).1
    rw [← h, hbit]
  case h_5 rest hs =>
    injection h with h
    exact .inr (.inr (.inr (.inr ⟨rest, hs, h.symm⟩)))

end Sys2Proof.Machine
end

