-- ==== Sys2Proof/Tests/Slice0.lean ====
section
/-! SUPPORT. Small tests: what is ill formed is refused, command words written out bit by bit from 30_encoding.md R90 and R91, vectors
of 95_test_vectors.md section 2, and for each claim with hypotheses a state and operands that meet them. -/

namespace Sys2Proof.Tests

open Sys2Proof.Machine

/-! ## Helpers -/

/-- The reset state with A, B and N written. -/
def idle (a b n : Nat) : State := { State.reset with regA := a, regB := b, regN := n }

/-- A command in flight on A, B and N. -/
def inFlight (i : Instr) (a b n : Nat) : State := { idle a b n with busy := true, cur := opcode i }

/-- ISPRIME in flight on N with ITERS, and the draws to come. -/
def testing (n : Nat) (iters : Word) (draws : List Nat) : State :=
  { inFlight .isprime 0 0 n with iters := iters, rngrdy := true, rng := ⟨draws, 0⟩ }

/-- MKPRIME in flight with BITS and ITERS, and the draws to come. -/
def searching (bits iters : Word) (draws : List Nat) : State :=
  { inFlight .mkprime 0 0 0 with bits := bits, iters := iters, rngrdy := true, rng := ⟨draws, 0⟩ }

/-- The host about to make one access, in `s`. -/
def hostNext (op : HostOp) (s : State) : State := { s with script := [op] }

/-- What `f` says of the next state, if there is one. -/
def next? {α : Type} (f : State → α) (o : Host.Outcome State Fault Refusal) : Option α :=
  match o with
  | .next s => some (f s)
  | _ => none

/-- R and the STATUS word, the two columns of the tables of 95_test_vectors.md section 2. -/
def outcome (s : State) : Nat × Word := (s.regR, statusWord s)

/-! ## Well-formedness: the good access passes, one ill-formed access per check does not (20_memory.md R60, R69) -/

theorem test_access_well_formed : HostOp.wellFormed (.read 0x7FFC 4) = true := by decide
theorem test_access_halfword : HostOp.wellFormed (.write 0x1000 2 0) = false := by decide
theorem test_access_misaligned : HostOp.wellFormed (.read 0x1002 4) = false := by decide
theorem test_access_outside : HostOp.wellFormed (.read 0x8000 4) = false := by decide
theorem test_command_well_formed : Instr.wellFormed .gcd = true := by decide

/-! ## Decoding: words written out from 30_encoding.md R90, R91; illegal words from 95_test_vectors.md section 2.9 -/

theorem test_decode_gcd : decode 0b00000000000000000000000000000001#32 = .ok .gcd := by rfl
theorem test_decode_modinv : decode 0b00000000000000000000000000000010#32 = .ok .modinv := by rfl
theorem test_decode_powmod : decode 0b00000000000000000000000000000011#32 = .ok .powmod := by rfl
theorem test_decode_isprime : decode 0b00000000000000000000000000000100#32 = .ok .isprime := by rfl
theorem test_decode_mkprime : decode 0b00000000000000000000000000000101#32 = .ok .mkprime := by rfl
theorem test_decode_modred : decode 0b00000000000000000000000000000110#32 = .ok .modred := by rfl
theorem test_decode_mulmod : decode 0b00000000000000000000000000000111#32 = .ok .mulmod := by rfl
theorem test_decode_rnginit : decode 0b00000000000000000000000000010000#32 = .ok .rnginit := by rfl
theorem test_decode_rngclear : decode 0b00000000000000000000000000010001#32 = .ok .rngclear := by rfl
theorem test_decode_zero : decode 0x00000000 = .error .opcodeUnassigned := by rfl
theorem test_decode_gap : decode 0x0000000F = .error .opcodeUnassigned := by rfl
theorem test_decode_mbz : decode 0x00000103 = .error .mbzSet := by rfl
theorem test_decode_bit31 : decode 0x80000001 = .error .mbzSet := by rfl
theorem test_table_word : decodeTableWord 32 0x10 = some .rnginit := by rfl

/-- The placed word is what the very next step launches (30_encoding.md R94). -/
theorem test_fetch_word : next? outcome (step (State.reset.withFetchWord 32 0x01)) = some (0, 0x00000001) := by decide

/-! ## Commands (95_test_vectors.md sections 2.1 to 2.8) -/

theorem test_modred : next? outcome (exec .modred (inFlight .modred 67108864 0 497)) = some (445, 0x00000002) := by decide
theorem test_modred_modzero : next? outcome (exec .modred (idle 10 0 0)) = some (0, 0x00000206) := by decide
theorem test_mulmod_exact :
    next? outcome (exec .mulmod (inFlight .mulmod (2 ^ 63) 2 (2 ^ 64 - 1))) = some (1, 0x00000002) := by decide
theorem test_gcd : next? outcome (exec .gcd (inFlight .gcd 240 46 0)) = some (2, 0x00000002) := by decide
theorem test_gcd_zero : next? outcome (exec .gcd (inFlight .gcd 0 0 0)) = some (0, 0x00000002) := by decide
theorem test_modinv : next? outcome (exec .modinv (inFlight .modinv 17 0 3120)) = some (2753, 0x00000002) := by decide
theorem test_modinv_none : next? outcome (exec .modinv (inFlight .modinv 240 0 46)) = some (0, 0x0000000A) := by decide
theorem test_powmod : next? outcome (exec .powmod (inFlight .powmod 4 13 497)) = some (445, 0x00000002) := by decide
theorem test_powmod_modulus_one : next? outcome (exec .powmod (inFlight .powmod 5 0 1)) = some (0, 0x00000002) := by decide
theorem test_isprime_carmichael : next? outcome (exec .isprime (testing 561 2 [0])) = some (0, 0x00000042) := by decide
theorem test_isprime_even_liar : next? outcome (exec .isprime (testing 28 2 [7])) = some (1, 0x00000052) := by decide
theorem test_mkprime_too_short :
    next? (fun s => (statusWord s, s.search)) (exec .mkprime (searching 4 2 [6, 9, 0, 13, 0])) =
      some (0x00000041, some ⟨[9, 0, 13, 0], 0⟩) := by decide
theorem test_mkprime_found : next? outcome (exec .mkprime (searching 4 2 [13, 0])) = some (13, 0x00000042) := by decide
theorem test_rnginit : next? outcome (exec .rnginit (inFlight .rnginit 0 0 0)) = some (0, 0x00000042) := by decide
theorem test_rnginit_ready :
    next? outcome (exec .rnginit { State.reset with rngrdy := true }) = some (0, 0x00000446) := by decide
theorem test_rngclear :
    next? outcome (exec .rngclear { inFlight .rngclear 0 0 0 with rngrdy := true }) = some (0, 0x00000002) := by decide
theorem test_rngclear_unready : next? outcome (exec .rngclear State.reset) = some (0, 0x00000406) := by decide

/-! ## Registers (95_test_vectors.md section 2.10) -/

theorem test_ctrl_holds_ie :
    next? (memRead 2 0x0008) (memWrite 2 0x0008 0xFFFFFFFF State.reset) = some 0x00000001 := by decide
theorem test_limb_one : next? State.regA (memWrite 2 0x1004 0x00000001 State.reset) = some (2 ^ 32) := by decide
theorem test_bank_tail : next? State.regA (memWrite 2 0x1008 5 State.reset) = some 0 := by decide
theorem test_result_read_only : next? (memRead 2 0x4000) (memWrite 2 0x4000 7 State.reset) = some 0 := by decide
theorem test_seed_high :
    next? State.seed (memWrite 2 0x0018 0x00000001 { State.reset with seed := 0x2A }) = some 0x000000010000002A := by decide
theorem test_dropped_write :
    next? (fun s => (s.regN, s.ovr)) (memWrite 2 0x3000 9 (inFlight .gcd 1 1 7)) = some (7, true) := by decide
theorem test_status_clears :
    next? statusWord (memWrite 2 0x0004 0xFFFFFFFF
      { State.reset with done := true, ovr := true, err := true, errcode := .modzero }) = some 0x00000204 := by decide

/-! ## Witnesses: states and operands that meet the hypotheses of each claim, at the boundaries where a claim has several clauses -/

theorem L_pos : 1 ≤ Config.L := by unfold Config.L; omega
theorem L_le : Config.L ≤ 1024 := by have := Config.spareLimbs.isLt; unfold Config.L; omega
theorem W_ge : 32 ≤ Config.W := by have := L_pos; unfold Config.W; omega
theorem lt_pow_W (x : Nat) (h : x < 2 ^ 32) : x < 2 ^ Config.W :=
  Nat.lt_of_lt_of_le h (Nat.pow_le_pow_right (by omega) W_ge)

theorem idle_inv (a b n : Nat) (ha : a < 2 ^ 32) (hb : b < 2 ^ 32) (hn : n < 2 ^ 32) : (idle a b n).Inv := by
  constructor <;> first
    | exact lt_pow_W _ ha
    | exact lt_pow_W _ hb
    | exact lt_pow_W _ hn
    | simp [idle, State.reset]

theorem gcd_inv (a b n : Nat) (ha : a < 2 ^ 32) (hb : b < 2 ^ 32) (hn : n < 2 ^ 32) : (inFlight .gcd a b n).Inv := by
  constructor <;> first
    | exact lt_pow_W _ ha
    | exact lt_pow_W _ hb
    | exact lt_pow_W _ hn
    | exact fun _ => ⟨.gcd, rfl, rfl⟩
    | simp [inFlight, idle, State.reset]

theorem witness_resetTurn : { State.reset with turns := [.reset], regA := 5 }.turns = .reset :: [] := rfl

theorem witness_hostCommand : let s := hostNext (.write 0x0000 4 0x00000001) (idle 240 46 0)
    nextAgent s = .host ∧ s.script = .write 0x0000 4 0x00000001 :: [] ∧ s.busy = false ∧ decode 0x00000001 = .ok .gcd ∧
      Instr.wellFormed .gcd = true := ⟨rfl, rfl, rfl, rfl, rfl⟩

theorem witness_commandInFlight : let s := inFlight .gcd 240 46 0
    nextAgent s = .engine ∧ s.busy = true ∧ decodeOpcode s.cur = .ok .gcd ∧ Instr.wellFormed .gcd = true := ⟨rfl, rfl, rfl, rfl⟩

/-- An illegal word by its MBZ field, and one by its opcode. -/
theorem witness_illegalWord :
    (let s := hostNext (.write 0x0000 4 0x00000103) State.reset;
      nextAgent s = .host ∧ s.script = .write 0x0000 4 0x00000103 :: [] ∧ s.busy = false) ∧
    (0x00000103 : Word).toNat / 256 ≠ 0 ∧
    (0x00000008 : Word).toNat % 256 ∉ [0x01, 0x02, 0x03, 0x04, 0x05, 0x06, 0x07, 0x10, 0x11] :=
  ⟨⟨rfl, rfl, rfl⟩, by decide, by decide⟩

/-- For MODRED, MULMOD, MODINV and POWMOD: in flight with a modulus, the least one among them. -/
theorem witness_modulus : (inFlight .modred 5 3 1).busy = true ∧ (inFlight .modred 5 3 1).regN ≠ 0 ∧ (inFlight .gcd 5 3 1).busy = true :=
  ⟨rfl, by decide, rfl⟩

/-- MODINV with an inverse, without one, and at modulus 1. -/
theorem witness_modinv :
    (1 < Nat.gcd (inFlight .modinv 6 0 9).regA (inFlight .modinv 6 0 9).regN) ∧
    (¬ 1 < Nat.gcd (inFlight .modinv 3 0 2).regA (inFlight .modinv 3 0 2).regN) ∧
    (inFlight .modinv 4 0 1).regN = 1 := by decide

/-- POWMOD at modulus 1, and with exponent 0 at the least other modulus. -/
theorem witness_powmod : (inFlight .powmod 5 0 1).regN = 1 ∧ (inFlight .powmod 5 0 2).regB = 0 ∧
    2 ≤ (inFlight .powmod 5 0 2).regN := by decide

theorem witness_isprime : let s := testing 561 2 [0]
    s.busy = true ∧ s.iters.toNat ≠ 0 ∧ s.rngrdy = true ∧ 5 ≤ s.regN ∧ s.iters.toNat - 1 ≤ s.rng.queued.length := by decide

/-- ISPRIME on both sides of each fast path, with the largest iteration count. -/
theorem witness_fastPaths :
    (testing 0 0xFFFFFFFF []).iters.toNat ≠ 0 ∧ (testing 0 0xFFFFFFFF []).rngrdy = true ∧
    (testing 1 1 []).regN ≤ 1 ∧ (testing 2 1 []).regN = 2 ∧ (testing 3 1 []).regN = 3 ∧ (testing 4 1 []).regN = 4 ∧
    5 ≤ (testing 5 1 []).regN := by decide

theorem witness_oneIteration : let s := testing 9 1 []
    s.busy = true ∧ s.iters.toNat = 1 ∧ s.rngrdy = true ∧ 5 ≤ s.regN := by decide

/-- The least odd and the least even n of the claim, which end in its two last clauses. -/
theorem witness_decomposition : (5 ≤ 5 ∧ decompose 5 = (2, 1) ∧ 5 % 2 = 1) ∧ 5 ≤ 6 ∧ decompose 6 = (0, 5) ∧ 6 % 2 = 0 := by decide

theorem witness_round : 5 ≤ 221 ∧ roundPasses 221 2 55 174 = true ∧ roundPasses 221 2 55 137 = false := by decide

theorem witness_primeInput : let s := testing 97 4 [0, 1, 2]
    s.busy = true ∧ s.iters.toNat ≠ 0 ∧ s.rngrdy = true ∧ Nat.Prime s.regN :=
  ⟨rfl, by decide, rfl, by show Nat.Prime 97; norm_num⟩

/-- A candidate that qualifies, one that is too short, and one that fails its test (95_test_vectors.md section 2.7, first row). -/
theorem witness_candidate :
    (let s := searching 4 2 [13, 0];
      s.busy = true ∧ s.iters.toNat ≠ 0 ∧ s.rngrdy = true ∧ randBits (s.search.getD s.rng) s.bits.toNat = (13, ⟨[0], 0⟩) ∧
        bitLength 13 = s.bits.toNat ∧ isPrime 13 s.iters.toNat ⟨[0], 0⟩ = (true, ⟨[], 0⟩)) ∧
    (let s := searching 4 2 [6, 9, 0, 13, 0];
      randBits (s.search.getD s.rng) s.bits.toNat = (6, ⟨[9, 0, 13, 0], 0⟩) ∧ bitLength 6 ≠ s.bits.toNat) ∧
    (let s := searching 4 2 [9, 0, 13, 0];
      randBits (s.search.getD s.rng) s.bits.toNat = (9, ⟨[0, 13, 0], 0⟩) ∧ bitLength 9 = s.bits.toNat ∧
        isPrime 9 s.iters.toNat ⟨[0, 13, 0], 0⟩ = (false, ⟨[13, 0], 0⟩)) ∧
    (searching 4 2 [13, 0]).bits.toNat ≤ Config.W :=
  ⟨by decide, by decide, by decide, Nat.le_trans (by decide) W_ge⟩

/-- The run of the claim on the draws of 95_test_vectors.md section 2.7, first row: one candidate is too short, one fails its test, the
third qualifies. -/
theorem witness_search : let s := searching 4 2 [6, 9, 0, 13, 0]
    ∃ (c : Nat → Nat) (g h : Nat → RngState),
      s.busy = true ∧ decodeOpcode s.cur = .ok .mkprime ∧ s.iters.toNat ≠ 0 ∧ s.bits.toNat ≤ Config.W ∧ s.rngrdy = true ∧
      s.search = none ∧ s.turns = [] ∧ g 0 = s.rng ∧
      (∀ j, j ≤ 2 → randBits (g j) s.bits.toNat = (c j, h j)) ∧
      (∀ j, j < 2 → (bitLength (c j) ≠ s.bits.toNat ∧ g (j + 1) = h j) ∨
        (bitLength (c j) = s.bits.toNat ∧ isPrime (c j) s.iters.toNat (h j) = (false, g (j + 1)))) ∧
      bitLength (c 2) = s.bits.toNat ∧ isPrime (c 2) s.iters.toNat (h 2) = (true, g 3) := by
  refine ⟨fun j => [6, 9, 13].getD j 0, fun j => ⟨([[6, 9, 0, 13, 0], [9, 0, 13, 0], [13, 0], []] : List (List Nat)).getD j [], 0⟩,
    fun j => ⟨([[9, 0, 13, 0], [0, 13, 0], [0]] : List (List Nat)).getD j [], 0⟩, rfl, rfl, by decide,
    Nat.le_trans (by decide) W_ge, rfl, rfl, rfl, rfl, fun j hj => ?_, fun j hj => ?_, by decide, by decide⟩
  · interval_cases j <;> decide
  · interval_cases j <;> decide

theorem witness_mkprimeCompletes :
    ∃ t, (searching 4 2 [13, 0]).busy = true ∧ exec .mkprime (searching 4 2 [13, 0]) = .next t ∧ t.busy = false ∧ t.regR = 13 :=
  ⟨_, rfl, exec_busy _ _ rfl (by decide), by decide, by decide⟩

/-- A MKPRIME of one bit: after one candidate BUSY is still 1, whatever the draw. -/
theorem witness_neverCompletes : let s := searching 1 5 [1]
    s.busy = true ∧ decodeOpcode s.cur = .ok .mkprime ∧ s.bits.toNat ≤ 1 ∧ .reset ∉ s.turns ∧
      ∃ t, runSteps 1 s = .next t ∧ t.busy = true := by
  refine ⟨rfl, rfl, by decide, by decide, ?_⟩
  have h : step (searching 1 5 [1]) = .next (engineWork .mkprime (searching 1 5 [1])) :=
    exec_busy .mkprime (searching 1 5 [1]) rfl (by decide)
  exact ⟨_, by rw [run_succ_next 0 _ _ h, run_zero], by decide⟩

theorem witness_rng : (inFlight .rnginit 0 0 0).busy = true ∧ (inFlight .rnginit 0 0 0).rngrdy = false ∧
    { inFlight .rngclear 0 0 0 with rngrdy := true }.busy = true ∧
    { inFlight .rngclear 0 0 0 with rngrdy := true }.rngrdy = true := by decide

/-- A launch that passes: each condition at its boundary, MKPRIME at BITS = W. -/
theorem witness_launch :
    (idle 1 1 1).busy = false ∧ (idle 1 1 1).regN ≠ 0 ∧ { State.reset with iters := 1, rngrdy := true }.iters.toNat ≠ 0 ∧
    { State.reset with iters := 1, rngrdy := true }.rngrdy = true ∧ State.reset.rngrdy = false ∧
    { State.reset with bits := BitVec.ofNat 32 Config.W }.bits.toNat ≤ Config.W := by
  refine ⟨rfl, by decide, by decide, rfl, rfl, ?_⟩
  show (BitVec.ofNat 32 Config.W).toNat ≤ Config.W
  rw [BitVec.toNat_ofNat]
  exact Nat.mod_le _ _

/-- Each line of the launch check is reached, and where two conditions hold the lower code is reported (rule R246). -/
theorem witness_launchErrors :
    next? State.errcode (writeCmd 0x00000000 State.reset) = some .illcmd ∧
    next? State.errcode (writeCmd 0x00000003 State.reset) = some .modzero ∧
    next? State.errcode (writeCmd 0x00000004 State.reset) = some .param ∧
    next? State.errcode (writeCmd 0x00000005 { State.reset with bits := 32769, iters := 1 }) = some .param ∧
    next? State.errcode (writeCmd 0x00000004 { State.reset with iters := 1 }) = some .rngstate ∧
    next? State.errcode (writeCmd 0x00000011 State.reset) = some .rngstate ∧
    next? State.errcode (writeCmd 0x00000010 { State.reset with rngrdy := true }) = some .rngstate ∧
    next? State.errcode (writeCmd 0x00000001 State.reset) = some .none := by
  refine ⟨by decide, by decide, by decide, ?_, by decide, by decide, by decide, by decide⟩
  have h : Config.W < (32769 : Word).toNat := by
    have := L_le
    unfold Config.W
    show 32 * Config.L < 32769
    omega
  show next? State.errcode (exec .mkprime _) = _
  rw [exec_idle _ _ rfl]
  unfold launch launchCheck
  simp only [h, or_true, if_true, next?]
  rfl

theorem witness_errorCompletion :
    ∃ t, State.reset.busy = false ∧ writeCmd 0x00000003 State.reset = .next t ∧ t.errcode ≠ .none :=
  ⟨_, rfl, rfl, by decide⟩

theorem witness_modulusZero : (idle 10 0 0).busy = false ∧ (idle 10 0 0).regN = 0 := by decide

theorem witness_read : let s := hostNext (.read 0x7FFC 4) State.reset
    nextAgent s = .host ∧ s.script = .read 0x7FFC 4 :: [] ∧ 0x7FFC % 4 = 0 ∧ 0x7FFC < 0x8000 := by decide

/-- Every line of the host write is reached at an address of its own; the reserved words at the ends of their ranges. -/
theorem witness_write (addr : Nat)
    (h : addr ∈ [0x0000, 0x0004, 0x0008, 0x000C, 0x0010, 0x0014, 0x0018, 0x001C, 0x0FFC, 0x1000, 0x2000, 0x3000, 0x4000, 0x5000, 0x7FFC]) :
    let s := hostNext (.write addr 4 0x00000001) State.reset
    nextAgent s = .host ∧ s.script = .write addr 4 0x00000001 :: [] ∧ addr % 4 = 0 ∧ addr < 0x8000 :=
  ⟨rfl, rfl, (by decide : ∀ a ∈ _, a % 4 = 0) addr h, (by decide : ∀ a ∈ _, a < 0x8000) addr h⟩

/-- The last limb of a bank and the word after it, where the bank has one: no word is both. -/
theorem witness_bankEdge : ¬ ReservedWord Config.L (0x1000 + 4 * (Config.L - 1)) ∧ ¬ ReservedWord Config.L 0x0018 ∧
    ReservedWord Config.L 0x001C ∧ ReservedWord 2 0x1008 ∧ ¬ ReservedWord 2 0x1004 ∧ ¬ ReservedWord 1024 0x1FFC ∧
    ReservedWord Config.L 0x7FFC ∧ ¬ ReservedWord Config.L 0x8000 := by
  have h1 := L_pos
  have h2 := L_le
  unfold ReservedWord
  omega

theorem witness_writeWhileBusy : let s := hostNext (.write 0x3000 4 9) { inFlight .gcd 1 1 7 with turns := [.host] }
    nextAgent s = .host ∧ s.script = .write 0x3000 4 9 :: [] ∧ s.busy = true ∧
      ∃ i, i < Config.L ∧ 0x3000 = 0x3000 + 4 * i := ⟨rfl, rfl, rfl, 0, L_pos, rfl⟩

theorem witness_limbs : 1 ≤ 2 ∧ 2 ≤ 1024 ∧ { State.reset with regR := 2 ^ 64 - 1 }.regR < 2 ^ (32 * 2) := by decide

theorem witness_inert : ReservedWord 2 0x001C ∧ (0x00000002 : Word).getLsbD 1 = (0xFFFFFFDF : Word).getLsbD 1 ∧
    (0x00000002 : Word).getLsbD 5 = (0xFFFFFFDF : Word).getLsbD 5 ∧
    (0x00000001 : Word).getLsbD 0 = (0xFFFFFFFF : Word).getLsbD 0 := by decide

theorem witness_busyInv : (inFlight .gcd 240 46 0).Inv ∧ (inFlight .gcd 240 46 0).busy = true :=
  ⟨gcd_inv _ _ _ (by decide) (by decide) (by decide), rfl⟩

/-- The three refusals, each at the value next to one that is carried. -/
theorem witness_refusals :
    next? id (step (hostNext (.read 0x0004 2) State.reset)) = none ∧
    next? id (step (hostNext (.write 0x1002 4 0) State.reset)) = none ∧
    next? id (step (hostNext (.read 0x8000 4) State.reset)) = none ∧
    nextAgent (hostNext (.read 0x0004 2) State.reset) = .host := by decide

theorem witness_interrupt :
    (∃ t, { idle 1 1 0 with ie := true }.ie = true ∧ exec .gcd { idle 1 1 0 with ie := true } = .next t ∧ irq t = false) ∧
    (∃ t, { inFlight .gcd 1 1 0 with ie := true }.ie = true ∧
      exec .gcd { inFlight .gcd 1 1 0 with ie := true } = .next t ∧ irq t = true) ∧
    (0x00000002 : Word).getLsbD 1 = true ∧ { idle 1 1 0 with ie := true }.Inv := by
  refine ⟨⟨_, rfl, rfl, by decide⟩, ⟨_, rfl, rfl, by decide⟩, by decide, ?_⟩
  have h := idle_inv 1 1 0 (by decide) (by decide) (by decide)
  exact ⟨h.1, h.2, h.3, h.4, h.5, h.6, h.7, h.8, h.9, h.10, h.11, h.12⟩

theorem witness_step : (inFlight .gcd 240 46 0).Inv ∧ ∃ t, step (inFlight .gcd 240 46 0) = .next t ∧ t.regR = 2 :=
  ⟨gcd_inv _ _ _ (by decide) (by decide) (by decide), _, rfl, by decide⟩

/-- A launch and a completion, for the frame and for the commands that do not read Random State. -/
theorem witness_exec : (∃ t, exec .gcd (idle 240 46 0) = .next t ∧ t.cur ≠ (idle 240 46 0).cur) ∧
    (∃ t, exec .isprime (testing 97 2 [0]) = .next t ∧ t.rng ≠ (testing 97 2 [0]).rng ∧ t.prime = true) ∧
    ¬ CommandVisible 0x0003 ∧ ¬ CommandVisible 0x0008 ∧ ¬ CommandVisible 0x3FFF ∧ ¬ CommandVisible 0x5000 := by
  refine ⟨⟨_, rfl, by decide⟩, ⟨_, exec_busy _ _ rfl (by decide), by decide, by decide⟩, ?_⟩
  decide

theorem witness_notRead : ∃ t, exec .modred (inFlight .modred 10 99 7) = .next t ∧ 4 ≠ (inFlight .modred 10 99 7).regB ∧ t.regR = 3 :=
  ⟨_, rfl, by decide, by decide⟩

theorem witness_operandChange : ∃ t, step (hostNext (.write 0x1000 4 5) State.reset) = .next t ∧ t.regA ≠ State.reset.regA ∧
    t.regA = 5 := ⟨_, rfl, by decide, by decide⟩

theorem witness_constantWhileBusy : ∃ t, (inFlight .gcd 240 46 0).busy = true ∧ nextAgent (inFlight .gcd 240 46 0) ≠ .reset ∧
    step (inFlight .gcd 240 46 0) = .next t := ⟨_, rfl, by decide, rfl⟩

/-- R changes at a launch, at a completion and at reset. -/
theorem witness_resultChange :
    (∃ t, step (hostNext (.write 0x0000 4 1) { idle 4 6 0 with regR := 9 }) = .next t ∧ t.regR = 0) ∧
    (∃ t, step (inFlight .gcd 4 6 0) = .next t ∧ t.regR = 2) ∧
    (∃ t, step { idle 4 6 0 with regR := 9, turns := [.reset] } = .next t ∧ t.regR = 0) :=
  ⟨⟨_, rfl, by decide⟩, ⟨_, rfl, by decide⟩, ⟨_, rfl, by decide⟩⟩

/-- OVR set by a dropped write and not by one to a reserved word, cleared by STATUS bit 5, cleared by reset. -/
theorem witness_overrun :
    next? State.ovr (step (hostNext (.write 0x001C 4 1) { inFlight .gcd 4 6 0 with turns := [.host] })) = some false ∧
    next? State.ovr (step (hostNext (.write 0x0008 4 1) { inFlight .gcd 4 6 0 with turns := [.host] })) = some true ∧
    next? State.ovr (step (hostNext (.write 0x0004 4 0x20) { State.reset with ovr := true })) = some false ∧
    next? State.ovr (step { State.reset with ovr := true, turns := [.reset] }) = some false := by decide

/-- RNGRDY set by RNGINIT, cleared by RNGCLEAR, cleared by reset. -/
theorem witness_lifecycle :
    next? State.rngrdy (step (inFlight .rnginit 0 0 0)) = some true ∧
    next? State.rngrdy (step { inFlight .rngclear 0 0 0 with rngrdy := true }) = some false ∧
    next? State.rngrdy (step { State.reset with rngrdy := true, turns := [.reset] }) = some false := by decide

/-- Random State unready, and made ready by the step. -/
theorem witness_unreadyRandomState : (inFlight .rnginit 0 0 0).rngrdy = false ∧
    ∃ t, step (inFlight .rnginit 0 0 0) = .next t ∧ t.rngrdy = true := ⟨rfl, _, rfl, by decide⟩

/-- Idle before and after a read, and busy after a launch. -/
theorem witness_idleCur : (hostNext (.read 0x0004 4) State.reset).busy = false ∧
    (∃ t, step (hostNext (.read 0x0004 4) State.reset) = .next t ∧ t.busy = false) ∧
    ∃ t, step (hostNext (.write 0x0000 4 1) State.reset) = .next t ∧ t.busy = true :=
  ⟨rfl, ⟨_, rfl, by decide⟩, _, rfl, by decide⟩

theorem witness_hostWrite : let s := { idle 1 2 3 with script := hostWr Config.L .n 497 ++ [] }
    s.busy = false ∧ s.turns = [] ∧ s.regN < 2 ^ Config.W ∧ 497 < 2 ^ Config.W :=
  ⟨rfl, rfl, lt_pow_W _ (by decide), lt_pow_W _ (by decide)⟩

theorem witness_hostRead : let s := { State.reset with regR := 445, script := hostRd Config.L .r ++ [] }
    s.busy = false ∧ s.turns = [] ∧ s.regR < 2 ^ Config.W := ⟨rfl, rfl, lt_pow_W _ (by decide)⟩

theorem witness_encrypt : let s := { idle 1 2 3 with script := rsaEncrypt Config.L 65 17 3233 ++ [] }
    s.Inv ∧ s.busy = false ∧ s.turns = [] ∧ 65 < 2 ^ Config.W ∧ 17 < 2 ^ Config.W ∧ 3233 < 2 ^ Config.W ∧ 3233 ≠ 0 := by
  have h := idle_inv 1 2 3 (by decide) (by decide) (by decide)
  exact ⟨⟨h.1, h.2, h.3, h.4, h.5, h.6, h.7, h.8, h.9, h.10, h.11, h.12⟩, rfl, rfl, lt_pow_W _ (by decide), lt_pow_W _ (by decide),
    lt_pow_W _ (by decide), by decide⟩

theorem with_script_inv (s : State) (sc : List HostOp) (h : s.Inv) : { s with script := sc }.Inv :=
  ⟨h.1, h.2, h.3, h.4, h.5, h.6, h.7, h.8, h.9, h.10, h.11, h.12⟩

theorem witness_verify : let s := { idle 1 2 3 with script := rsaVerify Config.L 588 17 3233 ++ [] }
    s.Inv ∧ s.busy = false ∧ s.turns = [] ∧ 588 < 2 ^ Config.W ∧ 17 < 2 ^ Config.W ∧ 3233 < 2 ^ Config.W ∧ 3233 ≠ 0 :=
  ⟨with_script_inv _ _ (idle_inv 1 2 3 (by decide) (by decide) (by decide)), rfl, rfl, lt_pow_W _ (by decide),
    lt_pow_W _ (by decide), lt_pow_W _ (by decide), by decide⟩

/-- A key with a private exponent, and at the same totient an exponent without one. -/
theorem witness_privkey : let s := { idle 1 2 3 with script := rsaPrivkey Config.L 17 61 53 ++ [] }
    s.Inv ∧ s.busy = false ∧ s.turns = [] ∧ 1 ≤ 61 ∧ 1 ≤ 53 ∧ 17 < 2 ^ Config.W ∧ (61 - 1) * (53 - 1) < 2 ^ Config.W ∧
      (61 - 1) * (53 - 1) ≠ 0 ∧ ¬ 1 < Nat.gcd 17 ((61 - 1) * (53 - 1)) ∧ 1 < Nat.gcd 15 ((61 - 1) * (53 - 1)) :=
  ⟨with_script_inv _ _ (idle_inv 1 2 3 (by decide) (by decide) (by decide)), rfl, rfl, by decide, by decide,
    lt_pow_W _ (by decide), lt_pow_W _ (by decide), by decide, by decide, by decide⟩

theorem witness_coprime : let s := { idle 1 2 3 with script := rsaCoprime Config.L 17 3120 ++ [] }
    s.Inv ∧ s.busy = false ∧ s.turns = [] ∧ 17 < 2 ^ Config.W ∧ 3120 < 2 ^ Config.W :=
  ⟨with_script_inv _ _ (idle_inv 1 2 3 (by decide) (by decide) (by decide)), rfl, rfl, lt_pow_W _ (by decide),
    lt_pow_W _ (by decide)⟩

theorem witness_roundTrip : Nat.Prime 61 ∧ Nat.Prime 53 ∧ 61 ≠ 53 ∧ Nat.gcd 17 ((61 - 1) * (53 - 1)) = 1 ∧
    (inFlight .modinv 17 0 3120).busy = true ∧ (inFlight .modinv 17 0 3120).regA = 17 ∧
    (inFlight .modinv 17 0 3120).regN = (61 - 1) * (53 - 1) ∧
    (inFlight .powmod 65 17 3233).regN = 61 * 53 ∧ (inFlight .powmod 2790 2753 3233).regN = 61 * 53 :=
  ⟨by norm_num, by norm_num, by decide, by decide, rfl, rfl, rfl, rfl, rfl⟩

end Sys2Proof.Tests
end

/-! ## What a step can have done, said once (family 10_state)

The shared inversions: the address classes of a host write, the forms of the engine's step, and `StepTo`, one constructor per kind
of step that answers a next state. -/

namespace Sys2Proof.Machine

/-! ### Addresses of the words a busy engine owns -/

/-- A word that is neither STATUS, nor reserved, nor a limb of R lies below the bank of R (20_memory.md R65, R67). -/
theorem addr_of_owned (L addr : Nat) (h4 : addr % 4 = 0) (hw : addr < 0x8000) (hs : decodeAddr L addr ≠ .status)
    (hres : decodeAddr L addr ≠ .reserved) (hr : ∀ i, decodeAddr L addr ≠ .limb .r i) :
    addr ≠ 0x0004 ∧ addr < 0x4000 ∧ ¬ ReservedWord L addr := by
  have hnres : ¬ ReservedWord L addr := fun h => hres (decodeAddr_of_reserved L addr h4 h)
  refine ⟨fun h => hs (by subst h; rfl), ?_, hnres⟩
  by_contra hge
  by_cases h5 : addr < 0x5000
  · rcases decodeAddr_bank_cases L addr .r h4 (by dsimp only [bankBase]; omega) h5 with ⟨i, -, -, hd⟩ | ⟨-, hd⟩
    · exact hr i hd
    · exact hres hd
  · exact hnres (by omega)

/-- CMD and STATUS stand at one word each, and a limb at its own (20_memory.md R65). -/
theorem addr_of_decodeAddr (L addr : Nat) (h4 : addr % 4 = 0) (hw : addr < 0x8000) :
    (decodeAddr L addr = .cmd → addr = 0x0000) ∧ (decodeAddr L addr = .status → addr = 0x0004) ∧
      ∀ k i, decodeAddr L addr = .limb k i → i < L ∧ addr = bankBase k + 4 * i := by
  rcases decodeAddr_cases L addr h4 hw with ⟨ha, hd⟩ | ⟨ha, hd⟩ | ⟨-, hd⟩ | ⟨-, hd⟩ | ⟨-, hd⟩ | ⟨-, hd⟩ | ⟨-, hd⟩ |
    ⟨k, i, hi, ha, -, hd⟩ | ⟨-, hd⟩ <;> rw [hd]
  · exact ⟨fun _ => ha, nofun, nofun⟩
  · exact ⟨nofun, fun _ => ha, nofun⟩
  case inr.inr.inr.inr.inr.inr.inr.inl =>
    refine ⟨nofun, nofun, fun k' i' h => ?_⟩
    cases h
    exact ⟨hi, ha⟩
  all_goals exact ⟨nofun, nofun, nofun⟩

/-! ### The engine's step -/

/-- The step of MKPRIME on a candidate that qualifies (45_mkprime.md R203). -/
theorem engineWork_mkprime_found (s : State) (c : Nat) (S : RngState)
    (h : tryCandidate s.bits.toNat s.iters.toNat (s.search.getD s.rng) = (some c, S)) :
    engineWork .mkprime s = complete { s with regR := c, rng := S } := by
  simp only [engineWork, h]

/-- The step of MKPRIME on a candidate that does not qualify (45_mkprime.md R206; log 5). -/
theorem engineWork_mkprime_searching (s : State) (S : RngState)
    (h : tryCandidate s.bits.toNat s.iters.toNat (s.search.getD s.rng) = (none, S)) :
    engineWork .mkprime s = { s with search := some S } := by
  simp only [engineWork, h]

/-- What the engine's step can have done: a MKPRIME that goes on searching moves the hidden working state alone; every other step is
a completion, and which of NOINV, PRIME, RNG.S and RNGRDY it may have written depends on the command (60_exceptions.md R242). -/
theorem engineWork_cases (i : Instr) (s : State) :
    (i = .mkprime ∧ ∃ S, engineWork i s = { s with search := some S }) ∨
      ∃ (x : Nat) (f q : Bool) (g : RngState) (y : Bool),
        engineWork i s = complete { s with regR := x, noinv := f, prime := q, rng := g, rngrdy := y } ∧
          (i = .modinv ∨ f = s.noinv) ∧ (i = .isprime ∨ q = s.prime) ∧
          (i = .isprime ∨ i = .mkprime ∨ i = .rnginit ∨ g = s.rng) ∧
          (i = .rnginit ∧ y = true ∨ i = .rngclear ∧ y = false ∨ y = s.rngrdy) := by
  cases i with
  | mkprime =>
    rcases ht : tryCandidate s.bits.toNat s.iters.toNat (s.search.getD s.rng) with ⟨_ | c, S⟩
    · exact .inl ⟨rfl, S, engineWork_mkprime_searching s S ht⟩
    · exact .inr ⟨c, s.noinv, s.prime, S, s.rngrdy, engineWork_mkprime_found s c S ht, by simp⟩
  | _ => exact .inr ⟨_, _, _, _, _, rfl, by simp⟩

/-- What a command that answers a next state can have done: it starts, it ends at its launch with an error, or the engine takes its
step (30_encoding.md R94, 60_exceptions.md R242). -/
theorem exec_forms (i : Instr) (s t : State) (h : exec i s = .next t) :
    (s.busy = false ∧ t = startCommand i (clearForLaunch s)) ∨
      (s.busy = false ∧ ∃ c, t = raiseError c (clearForLaunch s)) ∨
      (s.busy = true ∧ t = engineWork i s) := by
  rcases exec_next i s t h with ⟨hb, ht⟩ | ⟨hb, -, ht⟩
  · rcases launch_cases i (launchCheck Config.W i s) s with ⟨-, e⟩ | ⟨-, e⟩
    · exact .inl ⟨hb, ht.trans e⟩
    · exact .inr (.inl ⟨hb, _, ht.trans e⟩)
  · exact .inr (.inr ⟨hb, ht⟩)

/-! ### Every step that answers a next state -/

/-- `s` with the host's turn used up and `rest` of its items to come. -/
abbrev State.afterItem (s : State) (rest : List HostOp) : State := { s with script := rest, turns := s.turns.tail }

/-- The kinds of step from `s` to a next state (20_memory.md R64, R73; 30_encoding.md R94; 60_exceptions.md R241). In all of them but
reset the turn is used up, and in the host's writes the access too. -/
inductive StepTo (s : State) : State → Prop where
  /-- Nothing but the environment moves: a read, a wait, a write without effect, a turn with nothing to do. -/
  | pass (script : List HostOp) (reads : List Word) :
      StepTo s { s with script := script, reads := reads, turns := s.turns.tail }
  /-- The host writes STATUS. -/
  | statusWrite (v : Word) (rest : List HostOp) (hagent : nextAgent s = .host) (hscript : s.script = .write 0x0004 4 v :: rest) :
      StepTo s (writeStatus v (s.afterItem rest))
  /-- The host writes a word the busy engine owns. -/
  | dropped (addr : Nat) (v : Word) (rest : List HostOp) (hagent : nextAgent s = .host)
      (hscript : s.script = .write addr 4 v :: rest) (hbusy : s.busy = true)
      (haddr : addr ≠ 0x0004 ∧ addr < 0x4000 ∧ ¬ ReservedWord Config.L addr) :
      StepTo s (dropWrite (s.afterItem rest))
  /-- The host writes CTRL or a parameter in IDLE. -/
  | paramWrite (ie : Bool) (iters bits : Word) (seed : Seed) (rest : List HostOp) (hagent : nextAgent s = .host)
      (hbusy : s.busy = false) :
      StepTo s { s with ie := ie, iters := iters, bits := bits, seed := seed, script := rest, turns := s.turns.tail }
  /-- The host writes a limb of A, B or N in IDLE. -/
  | limbWrite (k : Bank) (i : Nat) (v : Word) (rest : List HostOp) (hagent : nextAgent s = .host)
      (hscript : s.script = .write (bankBase k + 4 * i) 4 v :: rest) (hbusy : s.busy = false) (hk : k ≠ .r) (hi : i < Config.L) :
      StepTo s (writeLimb k i v (s.afterItem rest))
  /-- The host writes to CMD in IDLE the word of a command that passes its launch check. -/
  | started (i : Instr) (v : Word) (rest : List HostOp) (hagent : nextAgent s = .host)
      (hscript : s.script = .write 0x0000 4 v :: rest) (hbusy : s.busy = false) (hcheck : launchCheck Config.W i s = .none) :
      StepTo s (startCommand i (clearForLaunch (s.afterItem rest)))
  /-- The host writes to CMD in IDLE an illegal word or the word of a command that fails its launch check. -/
  | errored (c : ErrCode) (v : Word) (rest : List HostOp) (hagent : nextAgent s = .host)
      (hscript : s.script = .write 0x0000 4 v :: rest) (hbusy : s.busy = false) (hc : c ≠ .none) :
      StepTo s (raiseError c (clearForLaunch (s.afterItem rest)))
  /-- The engine takes the step it owes. -/
  | worked (i : Instr) (hagent : nextAgent s = .engine) (hbusy : s.busy = true) (hcur : decodeOpcode s.cur = .ok i)
      (hcheck : launchCheck Config.W i s = .none) :
      StepTo s (engineWork i (popTurn s))
  /-- The reset input acts. -/
  | reset (hagent : nextAgent s = .reset) : StepTo s (resetTurn (popTurn s))

section HostWrite

variable {s t : State} {addr : Nat} {v : Word} {rest : List HostOp}

/-- A write to CMD in IDLE starts a command or ends with an error (30_encoding.md R94). -/
theorem stepTo_of_writeCmd (hagent : nextAgent s = .host) (hscript : s.script = .write 0x0000 4 v :: rest)
    (hbusy : s.busy = false) (h : writeCmd v (s.afterItem rest) = .next t) : StepTo s t := by
  rcases writeCmd_cases v (s.afterItem rest) with ⟨i, -, e⟩ | ⟨_, -, e⟩
  · rw [e, exec_idle i (s.afterItem rest) hbusy] at h
    injection h with h
    subst h
    rcases launch_cases i (launchCheck Config.W i (s.afterItem rest)) (s.afterItem rest) with ⟨hc, hl⟩ | ⟨hc, hl⟩
    · rw [launchCheck_congr Config.W i s (s.afterItem rest) rfl rfl rfl rfl] at hc
      exact hl ▸ .started i v rest hagent hscript hbusy hc
    · exact hl ▸ .errored _ v rest hagent hscript hbusy hc
  · rw [e] at h
    injection h with h
    exact h ▸ .errored .illcmd v rest hagent hscript hbusy (by decide)

/-- A host write while BUSY = 1 (20_memory.md R64 lines 1 to 4, R67). -/
theorem stepTo_of_memWrite_busy (hagent : nextAgent s = .host) (hscript : s.script = .write addr 4 v :: rest)
    (h4 : addr % 4 = 0) (hw : addr < 0x8000) (hbusy : s.busy = true) (hs : decodeAddr Config.L addr ≠ .status)
    (hres : decodeAddr Config.L addr ≠ .reserved) (hr : ∀ i, decodeAddr Config.L addr ≠ .limb .r i)
    (h : memWrite Config.L addr v (s.afterItem rest) = .next t) : StepTo s t := by
  rw [memWrite_busy Config.L addr v (s.afterItem rest) hbusy hs hres hr] at h
  injection h with h
  exact h ▸ .dropped addr v rest hagent hscript hbusy (addr_of_owned Config.L addr h4 hw hs hres hr)

/-- A host write in IDLE to a word that is neither STATUS nor reserved (20_memory.md R64 lines 4 to 7). -/
theorem stepTo_of_memWrite_idle (hagent : nextAgent s = .host) (hscript : s.script = .write addr 4 v :: rest)
    (h4 : addr % 4 = 0) (hw : addr < 0x8000) (hbusy : s.busy = false) (hs : decodeAddr Config.L addr ≠ .status)
    (hr : ∀ i, decodeAddr Config.L addr ≠ .limb .r i)
    (h : memWrite Config.L addr v (s.afterItem rest) = .next t) : StepTo s t := by
  have hwrite : decodeAddr Config.L addr ≠ .cmd →
      writeTarget (decodeAddr Config.L addr) v (s.afterItem rest) = t := fun hc => by
    rw [memWrite_idle Config.L addr v (s.afterItem rest) hbusy hc] at h
    injection h
  obtain ⟨hcmd, -, hlimb⟩ := addr_of_decodeAddr Config.L addr h4 hw
  cases hd : decodeAddr Config.L addr with
  | cmd =>
    obtain rfl := hcmd hd
    rw [memWrite_cmd Config.L v (s.afterItem rest) hbusy] at h
    exact stepTo_of_writeCmd hagent hscript hbusy h
  | status => exact absurd hd hs
  | limb k i =>
    obtain ⟨hi, rfl⟩ := hlimb k i hd
    rw [hd] at hwrite
    exact hwrite nofun ▸ .limbWrite k i v rest hagent hscript hbusy (fun hk => hr i (hk ▸ hd)) hi
  | reserved =>
    rw [hd] at hwrite
    exact hwrite nofun ▸ .pass rest s.reads
  | _ =>
    rw [hd] at hwrite
    exact hwrite nofun ▸ .paramWrite _ _ _ _ rest hagent hbusy

/-- A host write that the bus can carry (20_memory.md R64). -/
theorem stepTo_of_memWrite (hagent : nextAgent s = .host) (hscript : s.script = .write addr 4 v :: rest)
    (h4 : addr % 4 = 0) (hw : addr < 0x8000)
    (h : memWrite Config.L addr v (s.afterItem rest) = .next t) : StepTo s t := by
  by_cases hs : decodeAddr Config.L addr = .status
  · obtain rfl := (addr_of_decodeAddr Config.L addr h4 hw).2.1 hs
    rw [memWrite_status _ _ _ _ hs] at h
    injection h with h
    exact h ▸ .statusWrite v rest hagent hscript
  by_cases hr : ∃ i, decodeAddr Config.L addr = .limb .r i
  · obtain ⟨i, hr⟩ := hr
    rw [memWrite_result _ _ i _ _ hr] at h
    injection h with h
    exact h ▸ .pass rest s.reads
  have hr' : ∀ i, decodeAddr Config.L addr ≠ .limb .r i := fun i hi => hr ⟨i, hi⟩
  cases hbusy : s.busy
  · exact stepTo_of_memWrite_idle hagent hscript h4 hw hbusy hs hr' h
  by_cases hres : decodeAddr Config.L addr = .reserved
  · rw [memWrite_reserved _ _ _ _ hres] at h
    injection h with h
    exact h ▸ .pass rest s.reads
  · exact stepTo_of_memWrite_busy hagent hscript h4 hw hbusy hs hres hr' h

end HostWrite

/-- A host turn is a pass or a write. -/
theorem stepTo_of_hostTurn (s t : State) (hagent : nextAgent s = .host) (h : hostTurn Config.L (popTurn s) = .next t) :
    StepTo s t := by
  rcases hostTurn_next Config.L (popTurn s) t h with ⟨-, rfl⟩ | ⟨addr, rest, -, -, -, rfl⟩ | ⟨addr, v, rest, hs, h4, hw, hm⟩ |
    ⟨rest, -, rfl⟩ | ⟨rest, -, rfl⟩
  · exact .pass s.script s.reads
  · exact .pass rest _
  · exact stepTo_of_memWrite hagent hs h4 hw hm
  · split
    · exact .pass s.script _
    · exact .pass rest _
  · split
    · exact .pass rest s.reads
    · exact .pass s.script s.reads

/-- An engine turn is a pass in IDLE and the step of the command in flight otherwise (60_exceptions.md R241). -/
theorem stepTo_of_engineTurn (s t : State) (hagent : nextAgent s = .engine) (h : engineTurn (popTurn s) = .next t) :
    StepTo s t := by
  unfold engineTurn at h
  split at h
  case isFalse =>
    injection h with h
    exact h ▸ .pass s.script s.reads
  case isTrue hbusy =>
    split at h
    case h_2 => cases h
    case h_1 i hcur =>
      rcases exec_next i (popTurn s) t h with ⟨hidle, -⟩ | ⟨-, hcheck, rfl⟩
      · exact absurd hbusy (Bool.eq_false_iff.mp hidle)
      · exact .worked i hagent hbusy hcur hcheck

/-- Every step that answers a next state is of one of the kinds of `StepTo`. -/
theorem stepTo_of_step (s t : State) (h : step s = .next t) : StepTo s t := by
  rcases step_cases s with ⟨hagent, e⟩ | ⟨hagent, e⟩ | ⟨hagent, e⟩ <;> rw [e] at h
  · exact stepTo_of_hostTurn s t hagent h
  · exact stepTo_of_engineTurn s t hagent h
  · injection h with h
    exact h ▸ .reset hagent

end Sys2Proof.Machine

/-! ## The invariants (10_state.md R41)

First the ranges of the values the commands compute, then one lemma per kind of step: it keeps `State.Inv`. -/

namespace Sys2Proof.Machine

/-! ### Ranges of the results -/

/-- Every remainder of the Euclidean loop stays below a bound of both operands. -/
theorem gcdLoop_lt (m fuel a b : Nat) (ha : a < m) (hb : b < m) : gcdLoop fuel a b < m := by
  induction fuel generalizing a b with
  | zero => exact ha
  | succ fuel ih =>
    unfold gcdLoop
    split
    · exact ha
    · exact ih b (a % b) hb (lt_of_le_of_lt (Nat.mod_le a b) ha)

/-- The answer of MODINV is a residue modulo N (42_modinv.md R150). -/
theorem modInv_fst_lt (a n : Nat) (hn : 0 < n) : (modInv a n).1 < n := by
  unfold modInv
  split
  split
  · exact hn
  next t _ _ =>
    have h := Int.emod_lt_of_pos t (Int.natCast_pos.mpr hn)
    have h' := Int.emod_nonneg t (Int.natCast_ne_zero.mpr hn.ne')
    dsimp only
    omega

/-- "No inverse" comes with the sentinel 0 (42_modinv.md R150). -/
theorem modInv_fst_of_noinv (a n : Nat) (h : (modInv a n).2 = true) : (modInv a n).1 = 0 := by
  unfold modInv at h ⊢
  split at h
  split at h
  next hr => simp only [if_pos hr]
  · cases h

/-- The accumulator of square-and-multiply stays a residue (43_powmod.md R167, R168). -/
theorem powLoop_lt (m fuel v p d : Nat) (hm : 0 < m) (hv : v < m) : powLoop m fuel v p d < m := by
  induction fuel generalizing v p d with
  | zero => exact hv
  | succ fuel ih =>
    unfold powLoop
    split
    · exact hv
    · refine ih _ _ _ ?_
      split
      · exact Nat.mod_lt _ hm
      · exact hv

theorem powMod_lt (b d m : Nat) (hm : 0 < m) : powMod b d m < m := powLoop_lt m d _ _ d hm (Nat.mod_lt _ hm)

/-- The launch check of the four commands with a modulus (30_encoding.md R95). -/
theorem regN_pos_of_launchCheck (W : Nat) (i : Instr) (s : State) (hi : i = .modinv ∨ i = .powmod ∨ i = .modred ∨ i = .mulmod)
    (hc : launchCheck W i s = .none) : 0 < s.regN := by
  refine Nat.pos_of_ne_zero fun h0 => ?_
  rcases hi with rfl | rfl | rfl | rfl <;> simp [launchCheck, h0] at hc

/-- The launch check of MKPRIME bounds BITS by the width (30_encoding.md R95). -/
theorem bits_le_of_launchCheck (W : Nat) (s : State) (hc : launchCheck W .mkprime s = .none) : s.bits.toNat ≤ W := by
  by_contra hgt
  simp [launchCheck, Nat.lt_of_not_le hgt] at hc

/-- A prime found by MKPRIME has at most BITS binary digits. -/
theorem tryCandidate_lt (bits iters c : Nat) (S S' : RngState) (h : tryCandidate bits iters S = (some c, S')) : c < 2 ^ bits := by
  obtain ⟨rfl, -, -⟩ := tryCandidate_some bits iters c S S' h
  exact rngNext_lt S _ (Nat.two_pow_pos _)

theorem one_lt_two_pow_W : 1 < 2 ^ Config.W := by
  have hL := L_bounds
  have hW := W_eq
  exact Nat.one_lt_two_pow (by omega)

/-- R stays below 2^W at every step of the engine (40_arith_modred_mulmod.md R127). -/
theorem engineWork_regR_lt (i : Instr) (s : State) (h : s.Inv) (hc : launchCheck Config.W i s = .none) :
    (engineWork i s).regR < 2 ^ Config.W := by
  have hzero : 0 < 2 ^ Config.W := Nat.two_pow_pos _
  have hmod (hi : i = .modinv ∨ i = .powmod ∨ i = .modred ∨ i = .mulmod)
      (hlt : 0 < s.regN → (engineWork i s).regR < s.regN) : (engineWork i s).regR < 2 ^ Config.W :=
    (hlt (regN_pos_of_launchCheck Config.W i s hi hc)).trans h.regN_lt
  cases i with
  | gcd => exact gcdLoop_lt _ _ _ _ h.regA_lt h.regB_lt
  | modinv => exact hmod (by simp) (modInv_fst_lt _ _)
  | powmod => exact hmod (by simp) (powMod_lt _ _ _)
  | modred => exact hmod (by simp) (Nat.mod_lt _)
  | mulmod => exact hmod (by simp) (Nat.mod_lt _)
  | isprime =>
    dsimp only [engineWork, complete_regR]
    split
    · exact one_lt_two_pow_W
    · exact hzero
  | mkprime =>
    rcases ht : tryCandidate s.bits.toNat s.iters.toNat (s.search.getD s.rng) with ⟨_ | c, S⟩
    · rw [engineWork_mkprime_searching s S ht]
      exact h.regR_lt
    · rw [engineWork_mkprime_found s c S ht]
      exact (tryCandidate_lt _ _ _ _ _ ht).trans_le (Nat.pow_le_pow_right (by decide) (bits_le_of_launchCheck _ s hc))
  | rnginit => exact hzero
  | rngclear => exact hzero

/-- A command in flight ends with NOINV only with the sentinel in R (42_modinv.md R152). -/
theorem engineWork_noinv (i : Instr) (s : State) (h0 : s.noinv = false) (h : (engineWork i s).noinv = true) :
    (engineWork i s).regR = 0 := by
  by_cases hi : i = .modinv
  · subst hi
    exact modInv_fst_of_noinv _ _ h
  · rcases engineWork_cases i s with ⟨-, S, e⟩ | ⟨x, f, q, g, y, e, hf, -⟩ <;> rw [e] at h
    · exact absurd (h0.symm.trans h) (by decide)
    · exact absurd ((hf.resolve_left hi).trans h0 |>.symm.trans h) (by decide)

/-- A command in flight ends with PRIME only with 1 in R (44_isprime.md R186). -/
theorem engineWork_prime (i : Instr) (s : State) (h0 : s.prime = false) (h : (engineWork i s).prime = true) :
    (engineWork i s).regR = 1 := by
  by_cases hi : i = .isprime
  · subst hi
    exact if_pos h
  · rcases engineWork_cases i s with ⟨-, S, e⟩ | ⟨x, f, q, g, y, e, -, hq, -⟩ <;> rw [e] at h
    · exact absurd (h0.symm.trans h) (by decide)
    · exact absurd ((hq.resolve_left hi).trans h0 |>.symm.trans h) (by decide)

/-! ### Each kind of step keeps the invariants -/

namespace State.Inv

variable {s : State}

/-- The invariants do not speak of the environment. -/
theorem withEnv (h : s.Inv) (script : List HostOp) (reads : List Word) (turns : List Agent) :
    { s with script := script, reads := reads, turns := turns }.Inv := { h with }

theorem writeStatus (h : s.Inv) (v : Word) : (writeStatus v s).Inv :=
  { h with busy_not_done := fun hb => by simp [h.busy_not_done hb] }

theorem dropWrite (h : s.Inv) : (dropWrite s).Inv := { h with }

/-- An idle NTE holds no hidden working state (10_state.md R39). -/
theorem search_of_idle (h : s.Inv) (hb : s.busy = false) : s.search = none :=
  by_contra fun hs => absurd (h.search_mkprime hs).1 (by simp [hb])

theorem writeParams (h : s.Inv) (hb : s.busy = false) (ie : Bool) (iters bits : Word) (seed : Seed) :
    { s with ie := ie, iters := iters, bits := bits, seed := seed }.Inv :=
  { h with busy_command := fun hb' => absurd (hb.symm.trans hb') (by decide) }

theorem writeOperands (h : s.Inv) (hb : s.busy = false) {a b n : Nat} (ha : a < 2 ^ Config.W) (hb' : b < 2 ^ Config.W)
    (hn : n < 2 ^ Config.W) : { s with regA := a, regB := b, regN := n }.Inv :=
  { h with
    regA_lt := ha, regB_lt := hb', regN_lt := hn, busy_command := fun hbusy => absurd (hb.symm.trans hbusy) (by decide) }

/-- A limb below L keeps its register below 2^W (20_memory.md R66). -/
theorem writeLimb (h : s.Inv) (hb : s.busy = false) (k : Bank) (i : Nat) (v : Word) (hi : i < Config.L) :
    (writeLimb k i v s).Inv := by
  have hlt {x : Nat} (hx : x < 2 ^ Config.W) : setLimb x i v < 2 ^ Config.W := by
    rw [W_eq] at hx ⊢
    exact setLimb_lt Config.L x i v hi hx
  cases k with
  | a => exact h.writeOperands hb (hlt h.regA_lt) h.regB_lt h.regN_lt
  | b => exact h.writeOperands hb h.regA_lt (hlt h.regB_lt) h.regN_lt
  | n => exact h.writeOperands hb h.regA_lt h.regB_lt (hlt h.regN_lt)
  | r => exact h

/-- A launch that passes its checks writes CUR, and leaves what the checks read (30_encoding.md R94). -/
theorem startCommand (h : s.Inv) (i : Instr) (hc : launchCheck Config.W i s = .none) :
    (startCommand i (clearForLaunch s)).Inv where
  regA_lt := h.regA_lt
  regB_lt := h.regB_lt
  regN_lt := h.regN_lt
  regR_lt := Nat.two_pow_pos _
  busy_not_done _ := rfl
  err_iff := by simp
  err_idle := nofun
  noinv_zero _ := rfl
  prime_one := nofun
  busy_clear _ := ⟨rfl, rfl, rfl, rfl⟩
  busy_command _ := ⟨i, decodeOpcode_opcode i, (launchCheck_congr _ i s _ rfl rfl rfl rfl).trans hc⟩
  search_mkprime := absurd rfl

/-- Error completion leaves an idle NTE with R = 0 and the code (60_exceptions.md R243). -/
theorem raiseError (h : s.Inv) (hb : s.busy = false) (c : ErrCode) (hc : c ≠ .none) :
    (raiseError c (clearForLaunch s)).Inv where
  regA_lt := h.regA_lt
  regB_lt := h.regB_lt
  regN_lt := h.regN_lt
  regR_lt := Nat.two_pow_pos _
  busy_not_done hb' := absurd (hb.symm.trans hb') (by decide)
  err_iff := by simp [hc]
  err_idle _ := hb
  noinv_zero _ := rfl
  prime_one := nofun
  busy_clear hb' := absurd (hb.symm.trans hb') (by decide)
  busy_command hb' := absurd (hb.symm.trans hb') (by decide)
  search_mkprime hs := absurd (h.search_of_idle hb) hs

/-- The engine's step: a search goes on, or the command completes (60_exceptions.md R242). -/
theorem engineWork (h : s.Inv) (hb : s.busy = true) (i : Instr) (hi : decodeOpcode s.cur = .ok i)
    (hc : launchCheck Config.W i s = .none) : (engineWork i s).Inv := by
  obtain ⟨-, herr, hnoinv, hprime⟩ := h.busy_clear hb
  have hR := engineWork_regR_lt i s h hc
  have hN := engineWork_noinv i s hnoinv
  have hP := engineWork_prime i s hprime
  rcases engineWork_cases i s with ⟨rfl, S, e⟩ | ⟨x, f, q, g, y, e, -⟩ <;> rw [e] at hR hN hP ⊢
  · exact { h with search_mkprime := fun _ => ⟨hb, hi⟩ }
  · exact { h with
      regR_lt := hR, noinv_zero := hN, prime_one := hP, busy_not_done := nofun, err_idle := fun _ => rfl,
      busy_clear := nofun, busy_command := nofun, search_mkprime := absurd rfl }

/-- The reset state: everything is 0 (10_state.md R40). -/
theorem reset : State.reset.Inv where
  regA_lt := Nat.two_pow_pos _
  regB_lt := Nat.two_pow_pos _
  regN_lt := Nat.two_pow_pos _
  regR_lt := Nat.two_pow_pos _
  busy_not_done := nofun
  err_iff := by decide
  err_idle := nofun
  noinv_zero := nofun
  prime_one := nofun
  busy_clear := nofun
  busy_command := nofun
  search_mkprime := absurd rfl

/-- The invariants hold after every kind of step. -/
theorem of_stepTo {t : State} (h : s.Inv) (hst : StepTo s t) : t.Inv := by
  have hitem (rest : List HostOp) : (s.afterItem rest).Inv := h.withEnv rest s.reads s.turns.tail
  cases hst with
  | pass script reads => exact h.withEnv script reads _
  | statusWrite v rest => exact (hitem rest).writeStatus v
  | dropped _ _ rest => exact (hitem rest).dropWrite
  | paramWrite ie iters bits seed rest _ hb => exact (hitem rest).writeParams hb ie iters bits seed
  | limbWrite k i v rest _ _ hb _ hi => exact (hitem rest).writeLimb hb k i v hi
  | started i _ rest _ _ _ hc =>
    exact (hitem rest).startCommand i ((launchCheck_congr _ i s _ rfl rfl rfl rfl).trans hc)
  | errored c _ rest _ _ hb hc => exact (hitem rest).raiseError hb c hc
  | worked i _ hb hi hc =>
    exact (h.withEnv s.script s.reads s.turns.tail).engineWork hb i hi ((launchCheck_congr _ i s _ rfl rfl rfl rfl).trans hc)
  | reset => exact reset.withEnv _ _ _

end State.Inv

/-- Settles O43: every step is of one of the kinds of `StepTo`, and each kind keeps the invariants. -/
theorem stepKeepsTheInvariants : Obligations.StepKeepsTheInvariants :=
  fun s t h hstep => h.of_stepTo (stepTo_of_step s t hstep)

/-- Settles O42. -/
theorem resetStateHasTheInvariants : Obligations.ResetStateHasTheInvariants := State.Inv.reset

/-- Settles O1: the values `State.reset` names, and CMD as the register map has it. -/
theorem resetLeavesTheSpecifiedValues : Obligations.ResetLeavesTheSpecifiedValues :=
  ⟨rfl, rfl, rfl, rfl, rfl, rfl, rfl, rfl, rfl, rfl, rfl, rfl, fun _ => rfl⟩

end Sys2Proof.Machine

/-! ## The frame of the commands, and who may change A, B, N, R, OVR and RNGRDY -/

namespace Sys2Proof.Machine

/-! ### What the host reads outside STATUS and the bank of R -/

/-- Outside STATUS and the bank of R the window shows A, B, N, the parameters and IE, nothing else (20_memory.md R63, R65). -/
theorem memRead_congr (L addr : Nat) (s t : State) (h4 : addr % 4 = 0) (hw : addr < 0x8000) (hv : ¬ CommandVisible addr)
    (hA : t.regA = s.regA) (hB : t.regB = s.regB) (hN : t.regN = s.regN) (hit : t.iters = s.iters) (hbi : t.bits = s.bits)
    (hse : t.seed = s.seed) (hie : t.ie = s.ie) : memRead L addr t = memRead L addr s := by
  unfold memRead
  obtain ⟨-, hstatus, -⟩ := addr_of_decodeAddr L addr h4 hw
  cases hd : decodeAddr L addr with
  | status => exact absurd (.inl (by rw [hstatus hd]; decide)) hv
  | limb k i =>
    cases k with
    | r =>
      obtain ⟨-, -, hge, hlt⟩ := decodeAddr_limb_inv L addr .r i hd
      exact absurd (.inr ⟨hge, hlt⟩) hv
    | _ => simp only [readTarget, readBank, hA, hB, hN]
  | _ => simp only [readTarget, ctrlWord, hit, hbi, hse, hie]

/-- The same for the bytes of the window (20_memory.md R68). -/
theorem readByte_congr (L addr : Nat) (s t : State) (hw : addr < 0x8000) (hv : ¬ CommandVisible addr)
    (hA : t.regA = s.regA) (hB : t.regB = s.regB) (hN : t.regN = s.regN) (hit : t.iters = s.iters) (hbi : t.bits = s.bits)
    (hse : t.seed = s.seed) (hie : t.ie = s.ie) : readByte L addr t = readByte L addr s := by
  unfold readByte
  rw [memRead_congr L (addr / 4 * 4) s t (by omega) (by omega) (by omega) hA hB hN hit hbi hse hie]

/-! ### The frame of a command -/

/-- What no command writes: operands, parameters, IE, OVR and the environment (10_state.md R22, 60_exceptions.md R242). -/
structure SameInputs (s t : State) : Prop where
  regA : t.regA = s.regA
  regB : t.regB = s.regB
  regN : t.regN = s.regN
  iters : t.iters = s.iters
  bits : t.bits = s.bits
  seed : t.seed = s.seed
  ie : t.ie = s.ie
  ovr : t.ovr = s.ovr
  script : t.script = s.script
  reads : t.reads = s.reads
  turns : t.turns = s.turns

theorem sameInputs_engineWork (i : Instr) (s : State) : SameInputs s (engineWork i s) := by
  rcases engineWork_cases i s with ⟨-, S, e⟩ | ⟨x, f, q, g, y, e, -⟩ <;> rw [e] <;> constructor <;> rfl

theorem sameInputs_exec (i : Instr) (s t : State) (h : exec i s = .next t) : SameInputs s t := by
  rcases exec_forms i s t h with ⟨-, rfl⟩ | ⟨-, c, rfl⟩ | ⟨-, rfl⟩
  · constructor <;> rfl
  · constructor <;> rfl
  · exact sameInputs_engineWork i s

/-- Which outputs each command may write, and when (30_encoding.md R94, 60_exceptions.md R242). -/
theorem outputs_of_exec (i : Instr) (s t : State) (h : exec i s = .next t) :
    (t.rngrdy ≠ s.rngrdy → s.busy = true ∧ (i = .rnginit ∨ i = .rngclear)) ∧
      (t.rng ≠ s.rng → s.busy = true ∧ (i = .isprime ∨ i = .mkprime ∨ i = .rnginit)) ∧
      (t.cur ≠ s.cur → s.busy = false) ∧ (t.noinv ≠ s.noinv → s.busy = false ∨ i = .modinv) ∧
      (t.prime ≠ s.prime → s.busy = false ∨ i = .isprime) ∧ (t.err ≠ s.err ∨ t.errcode ≠ s.errcode → s.busy = false) := by
  rcases exec_forms i s t h with ⟨hb, rfl⟩ | ⟨hb, c, rfl⟩ | ⟨hb, rfl⟩
  · simp [hb]
  · simp [hb]
  · rcases engineWork_cases i s with ⟨-, S, e⟩ | ⟨x, f, q, g, y, e, hf, hq, hg, hy⟩ <;> rw [e]
    · simp
    · refine ⟨fun hne => ⟨hb, ?_⟩, fun hne => ⟨hb, ?_⟩, absurd rfl, fun hne => .inr (hf.resolve_right hne),
        fun hne => .inr (hq.resolve_right hne), by simp⟩
      · rcases hy with ⟨hi, -⟩ | ⟨hi, -⟩ | hy
        · exact .inl hi
        · exact .inr hi
        · exact absurd hy hne
      · rcases hg with hi | hi | hi | hg
        · exact .inl hi
        · exact .inr (.inl hi)
        · exact .inr (.inr hi)
        · exact absurd hg hne

/-- Settles O44: what all commands leave alone, which outputs each may write, and what the host reads of it. -/
theorem commandFrame : Obligations.CommandFrame := by
  intro i s t h
  obtain ⟨hA, hB, hN, hit, hbi, hse, hie, hovr, hsc, hrd, htu⟩ := sameInputs_exec i s t h
  obtain ⟨hready, hrng, hcur, hnoinv, hprime, herr⟩ := outputs_of_exec i s t h
  exact ⟨hA, hB, hN, hit, hbi, hse, hie, hovr, hsc, hrd, htu, hready, hrng, hcur, hnoinv, hprime, herr,
    fun addr hw hv => readByte_congr Config.L addr s t hw hv hA hB hN hit hbi hse hie⟩

/-! ### Who changes a register or a flag -/

@[simp] theorem writeLimb_regR (k : Bank) (i : Nat) (v : Word) (s : State) : (writeLimb k i v s).regR = s.regR := by
  cases k <;> simp only [writeLimb]

@[simp] theorem writeLimb_ovr (k : Bank) (i : Nat) (v : Word) (s : State) : (writeLimb k i v s).ovr = s.ovr := by
  cases k <;> simp only [writeLimb]

@[simp] theorem writeLimb_rngrdy (k : Bank) (i : Nat) (v : Word) (s : State) : (writeLimb k i v s).rngrdy = s.rngrdy := by
  cases k <;> simp only [writeLimb]

/-- Settles O45: no other kind of step than the write of a limb and reset touches an operand. -/
theorem operandsChangeOnlyByHostWriteOrReset : Obligations.OperandsChangeOnlyByHostWriteOrReset := by
  intro s t h hchange
  cases stepTo_of_step s t h with
  | worked i =>
    have hk := sameInputs_engineWork i (popTurn s)
    simp [hk.regA, hk.regB, hk.regN] at hchange
  | limbWrite k i v rest hagent hscript hbusy hk hi =>
    have hL := L_bounds.2
    refine .inr ⟨hagent, hbusy, _, v, rest, hscript, ?_⟩
    cases k <;> dsimp only [bankBase, writeLimb]
    case a => exact ⟨by omega, by omega, fun _ => by omega, absurd rfl, absurd rfl⟩
    case b => exact ⟨by omega, by omega, absurd rfl, fun _ => by omega, absurd rfl⟩
    case n => exact ⟨by omega, by omega, absurd rfl, absurd rfl, fun _ => by omega⟩
    case r => exact absurd rfl hk
  | reset hagent => exact .inl hagent
  | _ => simp at hchange

/-- Settles O47: a launch clears R, and the engine's step writes it only as it completes a command. -/
theorem resultChangesOnlyByLaunchCompletionOrReset : Obligations.ResultChangesOnlyByLaunchCompletionOrReset := by
  intro s t h hchange
  cases stepTo_of_step s t h with
  | limbWrite k i v => exact absurd (writeLimb_regR k i v _) hchange
  | started i v rest hagent hscript hbusy => exact .inr (.inr ⟨hagent, hbusy, rfl, v, rest, hscript⟩)
  | errored c v rest hagent hscript hbusy => exact .inr (.inr ⟨hagent, hbusy, rfl, v, rest, hscript⟩)
  | worked i hagent hbusy =>
    rcases engineWork_cases i (popTurn s) with ⟨-, S, e⟩ | ⟨x, f, q, g, y, e, -⟩ <;> rw [e] at hchange ⊢
    · exact absurd rfl hchange
    · exact .inr (.inl ⟨hagent, hbusy, rfl, rfl⟩)
  | reset hagent => exact .inl ⟨hagent, rfl⟩
  | _ => exact absurd rfl hchange

/-- A flag that kept its value was neither set nor cleared. -/
theorem not_set_not_cleared {old new : Bool} {P Q : Prop} (h : new = old) :
    (old = false → new = true → P) ∧ (old = true → new = false → Q) := by
  subst h
  exact ⟨fun h0 h1 => absurd (h0.symm.trans h1) (by decide), fun h0 h1 => absurd (h0.symm.trans h1) (by decide)⟩

/-- Settles O48: only a dropped write, a write to STATUS and reset touch OVR. -/
theorem overrunFlagChangesOnlyAsStated : Obligations.OverrunFlagChangesOnlyAsStated := by
  intro s t h
  cases stepTo_of_step s t h with
  | statusWrite v rest hagent hscript =>
    rw [writeStatus_ovr]
    refine ⟨fun h0 h1 => by simp [h0] at h1, fun h0 h1 => .inr ⟨hagent, v, rest, hscript, ?_⟩⟩
    by_contra hv
    rw [if_neg hv] at h1
    exact absurd (h0.symm.trans h1) (by decide)
  | dropped addr v rest hagent hscript hbusy haddr =>
    exact ⟨fun _ _ => ⟨hagent, hbusy, addr, v, rest, hscript, haddr⟩, nofun⟩
  | limbWrite k i v => exact not_set_not_cleared (writeLimb_ovr k i v _)
  | worked i => exact not_set_not_cleared (sameInputs_engineWork i (popTurn s)).ovr
  | reset hagent => exact ⟨nofun, fun _ _ => .inl hagent⟩
  | _ => exact not_set_not_cleared rfl

/-- Settles O49: of the kinds of step only the engine's and reset touch RNGRDY. -/
theorem randomStateLifecycle : Obligations.RandomStateLifecycle := by
  intro s t h
  cases stepTo_of_step s t h with
  | limbWrite k i v => exact not_set_not_cleared (writeLimb_rngrdy k i v _)
  | worked i hagent hbusy hcur =>
    rcases engineWork_cases i (popTurn s) with ⟨-, S, e⟩ | ⟨x, f, q, g, y, e, -, -, -, hy⟩ <;> rw [e]
    · exact not_set_not_cleared rfl
    · rcases hy with ⟨rfl, rfl⟩ | ⟨rfl, rfl⟩ | hy
      · exact ⟨fun _ _ => ⟨hagent, hbusy, hcur⟩, nofun⟩
      · exact ⟨nofun, fun _ _ => .inr ⟨hagent, hbusy, hcur⟩⟩
      · exact not_set_not_cleared hy
  | reset hagent => exact ⟨nofun, fun _ _ => .inl hagent⟩
  | _ => exact not_set_not_cleared rfl

end Sys2Proof.Machine

/-! ## What plays no part: RNG.S while unready, CUR while idle, the registers a command does not read

Both of the first are one fact about the host's turn, stated over `State.mask`, which rewrites CUR by a function that leaves it alone
while BUSY = 1, and RNG.S by a function of RNGRDY. -/

namespace Sys2Proof.Machine

/-- The outcome with `u` applied to its next state, if it has one. -/
def mapNext (u : State → State) : Host.Outcome State Fault Refusal → Host.Outcome State Fault Refusal
  | .next t => .next (u t)
  | .fault f => .fault f
  | .refused e => .refused e

/-- A stop is kept, and a next state is mapped. -/
theorem mapNext_outcomes (u : State → State) (o : Host.Outcome State Fault Refusal) :
    (∀ t, o = .next t → mapNext u o = .next (u t)) ∧ (∀ f, o = .fault f → mapNext u o = .fault f) ∧
      ∀ e, o = .refused e → mapNext u o = .refused e := by
  refine ⟨?_, ?_, ?_⟩ <;> rintro _ rfl <;> rfl

/-- CUR rewritten by a function of BUSY, RNG.S by one of RNGRDY. -/
def State.mask (cm : Bool → Opcode → Opcode) (rm : Bool → RngState → RngState) (s : State) : State :=
  { s with cur := cm s.busy s.cur, rng := rm s.rngrdy s.rng }

section Mask

variable (cm : Bool → Opcode → Opcode) (rm : Bool → RngState → RngState)

/-- The host reads neither CUR nor RNG.S (20_memory.md R63, R65). -/
theorem memRead_mask (L addr : Nat) (s : State) : memRead L addr (s.mask cm rm) = memRead L addr s := by
  unfold memRead
  cases decodeAddr L addr with
  | limb k i => cases k <;> rfl
  | _ => rfl

theorem launchCheck_mask (W : Nat) (i : Instr) (s : State) : launchCheck W i (s.mask cm rm) = launchCheck W i s :=
  launchCheck_congr W i s _ rfl rfl rfl rfl

theorem writeTarget_mask (k : Target) (v : Word) (s : State) :
    writeTarget k v (s.mask cm rm) = (writeTarget k v s).mask cm rm := by
  cases k with
  | limb k i => cases k <;> simp only [writeTarget, writeLimb] <;> rfl
  | _ => rfl

variable (hcm : ∀ c, cm true c = c)
include hcm

/-- A launch overwrites CUR if it sets BUSY, and neither reads CUR nor RNG.S (30_encoding.md R94, R95). -/
theorem launch_mask (i : Instr) (c : ErrCode) (s : State) : launch i c (s.mask cm rm) = (launch i c s).mask cm rm := by
  by_cases hc : c = .none
  · subst hc
    simp only [launch_passed, State.mask, startCommand, clearForLaunch, hcm]
  · simp only [launch_failed i c _ hc]
    rfl

theorem writeCmd_mask (v : Word) (s : State) (hb : s.busy = false) :
    writeCmd v (s.mask cm rm) = mapNext (State.mask cm rm) (writeCmd v s) := by
  unfold writeCmd
  cases decode v with
  | error e => rfl
  | ok i =>
    dsimp only
    rw [exec_idle i s hb, exec_idle i (s.mask cm rm) hb, launchCheck_mask, launch_mask cm rm hcm]
    rfl

theorem memWrite_mask (L addr : Nat) (v : Word) (s : State) :
    memWrite L addr v (s.mask cm rm) = mapNext (State.mask cm rm) (memWrite L addr v s) := by
  cases hb : s.busy
  · by_cases hd : decodeAddr L addr = .cmd
    · have hcmd (u : State) (hu : u.busy = false) : memWrite L addr v u = writeCmd v u := by simp [memWrite, hd, hu]
      rw [hcmd s hb, hcmd (s.mask cm rm) hb, writeCmd_mask cm rm hcm v s hb]
    · rw [memWrite_idle L addr v s hb hd, memWrite_idle L addr v (s.mask cm rm) hb hd, writeTarget_mask]
      rfl
  · have hb' : (s.mask cm rm).busy = true := hb
    unfold memWrite
    cases decodeAddr L addr with
    | limb k i => cases k <;> simp only [hb, hb', if_true] <;> rfl
    | status | reserved => rfl
    | _ => simp only [hb, hb', if_true]; rfl

/-- The host's turn commutes with the rewriting. -/
theorem hostTurn_mask (L : Nat) (s : State) :
    hostTurn L (s.mask cm rm) = mapNext (State.mask cm rm) (hostTurn L s) := by
  have hread (addr : Nat) : memRead L addr (s.mask cm rm) = memRead L addr s := memRead_mask cm rm L addr s
  have hscript : (s.mask cm rm).script = s.script := rfl
  unfold hostTurn
  rw [hscript]
  rcases s.script with _ | ⟨op, rest⟩
  · rfl
  cases op with
  | read addr width =>
    dsimp only
    cases accessRefusal addr width with
    | some e => rfl
    | none => simp only [hread]; rfl
  | write addr width v =>
    dsimp only
    cases accessRefusal addr width with
    | some e => rfl
    | none => exact memWrite_mask cm rm hcm L addr v { s with script := rest }
  | wait =>
    simp only [hread]
    split <;> rfl
  | waitIrq =>
    have hirq : irq (s.mask cm rm) = irq s := rfl
    simp only [hirq]
    split <;> rfl

omit hcm in
/-- Reset leaves nothing of CUR and RNG.S (10_state.md R40). -/
theorem step_mask_reset (s : State) (hagent : nextAgent s = .reset) : step (s.mask cm rm) = step s := by
  have hagent' : nextAgent (s.mask cm rm) = .reset := hagent
  simp only [step, takeTurn, hagent, hagent']
  rfl

/-- Without reset, a step commutes with the rewriting if the engine's turn does. -/
theorem step_mask (s : State) (hagent : nextAgent s ≠ .reset)
    (hengine : engineTurn ((popTurn s).mask cm rm) = mapNext (State.mask cm rm) (engineTurn (popTurn s))) :
    step (s.mask cm rm) = mapNext (State.mask cm rm) (step s) := by
  have hagent' : nextAgent (s.mask cm rm) = nextAgent s := rfl
  unfold step takeTurn
  rw [hagent']
  cases ha : nextAgent s with
  | host => exact hostTurn_mask cm rm hcm Config.L (popTurn s)
  | engine => exact hengine
  | reset => exact absurd ha hagent

end Mask

/-- The engine's turn in IDLE does nothing (60_exceptions.md R241). -/
theorem engineTurn_idle (s : State) (hb : s.busy = false) : engineTurn s = .next s := by
  simp [engineTurn, hb]

/-! ### RNG.S while RNGRDY = 0 -/

/-- RNG.S kept while RNGRDY = 1, and `g` in its place otherwise. -/
def unreadyRng (g : RngState) (ready : Bool) (x : RngState) : RngState := bif ready then x else g

/-- A command whose launch check holds while RNGRDY = 0 does not read RNG.S, and RNGINIT overwrites it (46_rng_system.md R210,
R211). -/
theorem engineWork_mask_rng (i : Instr) (s : State) (g : RngState) (hr : s.rngrdy = false)
    (hc : launchCheck Config.W i s = .none) :
    engineWork i (s.mask (fun _ c => c) (unreadyRng g)) = (engineWork i s).mask (fun _ c => c) (unreadyRng g) := by
  cases i with
  | isprime | mkprime =>
    simp only [launchCheck, hr] at hc
    split at hc <;> cases hc
  | rngclear => simp [launchCheck, hr] at hc
  | _ => rfl

theorem engineTurn_mask_rng (s : State) (g : RngState) (hr : s.rngrdy = false) :
    engineTurn (s.mask (fun _ c => c) (unreadyRng g)) = mapNext (State.mask (fun _ c => c) (unreadyRng g)) (engineTurn s) := by
  cases hb : s.busy
  · rw [engineTurn_idle s hb, engineTurn_idle (s.mask _ _) hb]
    rfl
  have hcur : (s.mask (fun _ c => c) (unreadyRng g)).cur = s.cur := rfl
  have hb' : (s.mask (fun _ c => c) (unreadyRng g)).busy = true := hb
  simp only [engineTurn, hcur, hb, hb', if_true]
  cases decodeOpcode s.cur with
  | error e => rfl
  | ok i =>
    have hcheck := launchCheck_mask (fun _ c => c) (unreadyRng g) Config.W i s
    dsimp only
    by_cases hc : launchCheck Config.W i s = .none
    · rw [exec_busy i s hb hc, exec_busy i _ hb' (hcheck.trans hc), engineWork_mask_rng i s g hr hc]
      rfl
    · rw [exec_eq, exec_eq, runCommand_broken i _ s hb hc, runCommand_broken i _ _ hb' (hcheck ▸ hc), hcheck]
      rfl

/-- Settles O50: reset overwrites RNG.S, and every other step commutes with rewriting it while it is unready. -/
theorem unreadyRandomStateIsNeverRead : Obligations.UnreadyRandomStateIsNeverRead := by
  intro s g hr
  have hmask : { s with rng := g } = s.mask (fun _ c => c) (unreadyRng g) := by simp [State.mask, unreadyRng, hr]
  rw [hmask]
  by_cases hagent : nextAgent s = .reset
  · rw [step_mask_reset _ _ s hagent]
    exact ⟨fun t ht => ⟨t.rng, ht, fun _ => rfl⟩, fun _ => id, fun _ => id⟩
  · rw [step_mask _ _ (fun _ => rfl) s hagent (engineTurn_mask_rng (popTurn s) g hr)]
    obtain ⟨hnext, hstops⟩ := mapNext_outcomes _ (step s)
    exact ⟨fun t ht => ⟨unreadyRng g t.rngrdy t.rng, hnext t ht, fun h => by rw [h]; rfl⟩, hstops⟩

/-! ### CUR while BUSY = 0 -/

/-- CUR kept while BUSY = 1, and `c` in its place otherwise. -/
def idleCur (c : Opcode) (busy : Bool) (x : Opcode) : Opcode := bif busy then x else c

/-- Settles O51: reset overwrites CUR, and every other step in IDLE commutes with rewriting it where it stays idle. -/
theorem idleCurIsNeverRead : Obligations.IdleCurIsNeverRead := by
  intro s c hb
  have hmask : { s with cur := c } = s.mask (idleCur c) (fun _ g => g) := by simp [State.mask, idleCur, hb]
  rw [hmask]
  by_cases hagent : nextAgent s = .reset
  · rw [step_mask_reset _ _ s hagent]
    exact ⟨fun t ht => ⟨t.cur, ht, fun _ => rfl⟩, fun _ => id, fun _ => id⟩
  · have hengine : engineTurn ((popTurn s).mask (idleCur c) (fun _ g => g)) =
        mapNext (State.mask (idleCur c) (fun _ g => g)) (engineTurn (popTurn s)) := by
      rw [engineTurn_idle (popTurn s) hb, engineTurn_idle ((popTurn s).mask _ _) hb]
      rfl
    rw [step_mask _ _ (fun _ => rfl) s hagent hengine]
    obtain ⟨hnext, hstops⟩ := mapNext_outcomes _ (step s)
    exact ⟨fun t ht => ⟨idleCur c t.busy t.cur, hnext t ht, fun h => by rw [h]; rfl⟩, hstops⟩

/-! ### The registers a command does not read -/

/-- `s` with other operands and parameters. -/
def State.withInputs (a b n : Nat) (iters bits : Word) (seed : Seed) (s : State) : State :=
  { s with regA := a, regB := b, regN := n, iters := iters, bits := bits, seed := seed }

/-- The new values are the old ones in the registers that `i` reads (10_state.md R21, R33, R34, R35). -/
structure SameReadInputs (i : Instr) (s : State) (a b n : Nat) (iters bits : Word) (seed : Seed) : Prop where
  regA : i = .isprime ∨ i = .mkprime ∨ i = .rnginit ∨ i = .rngclear ∨ a = s.regA
  regB : i = .modred ∨ i = .modinv ∨ i = .isprime ∨ i = .mkprime ∨ i = .rnginit ∨ i = .rngclear ∨ b = s.regB
  regN : i = .gcd ∨ i = .mkprime ∨ i = .rnginit ∨ i = .rngclear ∨ n = s.regN
  iters : i = .isprime ∨ i = .mkprime → iters = s.iters
  bits : i = .mkprime → bits = s.bits
  seed : i = .rnginit → seed = s.seed

section Inputs

variable {i : Instr} {s : State} {a b n : Nat} {iters bits : Word} {seed : Seed}

theorem launch_withInputs (c : ErrCode) :
    launch i c (s.withInputs a b n iters bits seed) = (launch i c s).withInputs a b n iters bits seed := by
  unfold launch
  split <;> rfl

variable (h : SameReadInputs i s a b n iters bits seed)
include h

/-- The launch check reads no other register. -/
theorem launchCheck_withInputs (W : Nat) : launchCheck W i (s.withInputs a b n iters bits seed) = launchCheck W i s := by
  obtain ⟨-, -, hn, hit, hbi, -⟩ := h
  cases i with
  | rnginit | rngclear => rfl
  | _ => simp_all [launchCheck, State.withInputs]

/-- The engine's step reads no other register. -/
theorem engineWork_withInputs :
    engineWork i (s.withInputs a b n iters bits seed) = (engineWork i s).withInputs a b n iters bits seed := by
  obtain ⟨ha, hb, hn, hit, hbi, hse⟩ := h
  cases i with
  | mkprime =>
    obtain rfl := hit (.inr rfl)
    obtain rfl := hbi rfl
    rcases ht : tryCandidate s.bits.toNat s.iters.toNat (s.search.getD s.rng) with ⟨_ | c, S⟩
    · rw [engineWork_mkprime_searching s S ht]
      exact engineWork_mkprime_searching (s.withInputs a b n s.iters s.bits seed) S ht
    · rw [engineWork_mkprime_found s c S ht]
      exact engineWork_mkprime_found (s.withInputs a b n s.iters s.bits seed) c S ht
  | _ => simp_all [engineWork, State.withInputs, complete]

end Inputs

/-- Settles O53: the launch check and the engine's step of a command read only the registers that are kept. -/
theorem notReadRegistersHaveNoInfluence : Obligations.NotReadRegistersHaveNoInfluence := by
  intro i s t a b n iters bits seed hst ha hb hn hit hbi hse
  have h : SameReadInputs i s a b n iters bits seed := ⟨ha, hb, hn, hit, hbi, hse⟩
  have hcheck := launchCheck_withInputs h Config.W
  show exec i (s.withInputs a b n iters bits seed) = .next (t.withInputs a b n iters bits seed)
  rcases exec_next i s t hst with ⟨hidle, rfl⟩ | ⟨hbusy, hc, rfl⟩
  · rw [exec_idle i (s.withInputs a b n iters bits seed) hidle, hcheck, launch_withInputs]
  · rw [exec_busy i (s.withInputs a b n iters bits seed) hbusy (hcheck.trans hc), engineWork_withInputs h]

end Sys2Proof.Machine

/-! ## Host accesses, word by word (family 20_memory)

First the host's turn on an access, then what a read of each kind of word returns, then what a write to each kind of word does. -/

namespace Sys2Proof.Machine

/-! ### The host's turn on an access -/

/-- No word of the window shows the turns or the host's items (20_memory.md R63, R65). -/
theorem memRead_popTurn (L addr : Nat) (s : State) : memRead L addr (popTurn s) = memRead L addr s := by
  unfold memRead
  cases decodeAddr L addr with
  | limb k i => cases k <;> rfl
  | _ => rfl

section HostAccess

variable {s : State} {addr width : Nat} {v : Word} {rest : List HostOp}

theorem step_of_host (hagent : nextAgent s = .host) : step s = hostTurn Config.L (popTurn s) := by
  simp only [step, takeTurn, hagent]

/-- An access that the bus cannot carry stops the host's turn (20_memory.md R69; log 11). -/
theorem step_refused (hagent : nextAgent s = .host)
    (hscript : s.script = .read addr width :: rest ∨ s.script = .write addr width v :: rest) {e : Refusal}
    (he : accessRefusal addr width = some e) : step s = .refused e := by
  have hpop : (popTurn s).script = s.script := rfl
  rw [step_of_host hagent]
  rcases hscript with h | h <;> simp only [hostTurn, hpop, h, he]

theorem step_read (hagent : nextAgent s = .host) (hscript : s.script = .read addr 4 :: rest) (h4 : addr % 4 = 0)
    (hw : addr < 0x8000) : step s = .next (recordRead (memRead Config.L addr s) (s.afterItem rest)) := by
  have hpop : (popTurn s).script = .read addr 4 :: rest := hscript
  have hok : accessRefusal addr 4 = none := (accessRefusal_eq_none addr 4).2 ⟨rfl, h4, hw⟩
  rw [step_of_host hagent, hostTurn, hpop]
  simp only [hok, memRead_popTurn]
  rfl

theorem step_write (hagent : nextAgent s = .host) (hscript : s.script = .write addr 4 v :: rest) (h4 : addr % 4 = 0)
    (hw : addr < 0x8000) : step s = memWrite Config.L addr v (s.afterItem rest) := by
  have hpop : (popTurn s).script = .write addr 4 v :: rest := hscript
  have hok : accessRefusal addr 4 = none := (accessRefusal_eq_none addr 4).2 ⟨rfl, h4, hw⟩
  rw [step_of_host hagent, hostTurn, hpop]
  simp only [hok]
  rfl

end HostAccess

/-- Settles O33: the read's turn is `recordRead` of the word on the state with the access used up. -/
theorem readTurnOnlyRecordsTheWord : Obligations.ReadTurnOnlyRecordsTheWord :=
  fun _ _ _ hagent hscript h4 hw => step_read hagent hscript h4 hw

/-- Settles O40: width, alignment and address, in the order of `accessRefusal_eq`. -/
theorem accessesTheBusCannotCarryAreRefused : Obligations.AccessesTheBusCannotCarryAreRefused := by
  intro s addr width v rest hagent hscript
  have hrefused : ∀ e, accessRefusal addr width = some e → step s = .refused e := fun _ => step_refused hagent hscript
  rw [accessRefusal_eq] at hrefused
  split_ifs at hrefused ⊢ with hwidth halign haddr
  · exact hrefused _ rfl
  · exact hrefused _ rfl
  · exact fun _ => hrefused _ rfl
  · exact fun h => absurd h haddr

/-! ### What a read returns -/

theorem memRead_limb (L : Nat) (hL : L ≤ 1024) (k : Bank) (i : Nat) (hi : i < L) (s : State) :
    memRead L (bankBase k + 4 * i) s = limb (readBank k s) i := by
  rw [memRead, decodeAddr_bank L hL k i hi, readTarget]

theorem memRead_reserved (L addr : Nat) (s : State) (h4 : addr % 4 = 0) (h : ReservedWord L addr) :
    memRead L addr s = 0 := by
  rw [memRead, decodeAddr_of_reserved L addr h4 h, readTarget]

theorem seedLo_toNat (x : Seed) : (x.extractLsb' 0 32).toNat = x.toNat % 2 ^ 32 := by
  rw [BitVec.extractLsb'_toNat, Nat.shiftRight_zero]

theorem seedHi_toNat (x : Seed) : (x.extractLsb' 32 32).toNat = x.toNat / 2 ^ 32 := by
  rw [BitVec.extractLsb'_toNat, Nat.shiftRight_eq_div_pow]
  exact Nat.mod_eq_of_lt (by omega)

/-- Settles O34: the seven registers by the map's first lines, the limbs and the reserved words by its other ones. -/
theorem everyWordReadsItsRegister : Obligations.EveryWordReadsItsRegister := by
  intro L s _ hL
  obtain ⟨hbusy, hdone, herr, hnoinv, hprime, hovr, hrngrdy, hbit7, herrcode, -⟩ := statusWord_fields s
  have hlimb : ∀ k i, i < L → (memRead L (bankBase k + 4 * i) s).toNat = readBank k s / 2 ^ (32 * i) % 2 ^ 32 :=
    fun k i hi => by rw [memRead_limb L hL k i hi, limb_toNat]
  exact ⟨rfl, ⟨hbusy, hdone, herr, hnoinv, hprime, hovr, hrngrdy, hbit7, herrcode⟩, ctrlWord_eq s, rfl, rfl,
    seedLo_toNat s.seed, seedHi_toNat s.seed,
    fun i hi => ⟨hlimb .a i hi, hlimb .b i hi, hlimb .n i hi, hlimb .r i hi⟩,
    fun addr h4 h => memRead_reserved L addr s h4 h⟩

/-- The `L` lowest limbs of a number, each at its place, are its residue modulo 2^(32 L) (20_memory.md R66). -/
theorem sum_limbs (x L : Nat) : ((List.range L).map fun i => (limb x i).toNat * 2 ^ (32 * i)).sum = x % 2 ^ (32 * L) := by
  induction L with
  | zero => simp [Nat.mod_one]
  | succ L ih =>
    rw [List.range_succ, List.map_append, List.sum_append, ih, List.map_singleton, List.sum_singleton, limb_toNat,
      pow_limb_succ, Nat.mod_mul, Nat.mul_comm (2 ^ (32 * L))]

/-- Settles O37: the words of the bank of R are the limbs of R, and R is its own residue. -/
theorem registerIsTheSumOfItsLimbs : Obligations.RegisterIsTheSumOfItsLimbs := by
  intro L s _ hL hR
  have hwords : ∀ i ∈ List.range L, (memRead L (0x4000 + 4 * i) s).toNat * 2 ^ (32 * i) = (limb s.regR i).toNat * 2 ^ (32 * i) :=
    fun i hi => congrArg (fun w : Word => w.toNat * 2 ^ (32 * i)) (memRead_limb L hL .r i (List.mem_range.mp hi) s)
  rw [List.map_congr_left hwords, sum_limbs, Nat.mod_eq_of_lt hR]

theorem limb_zero (i : Nat) : limb 0 i = 0 := by
  rw [limb, Nat.zero_div]
  rfl

/-- Settles O39: the invariants of a state with BUSY = 1, read through STATUS and the bank of R. -/
theorem readsWhileBusyShowNoResult : Obligations.ReadsWhileBusyShowNoResult := by
  intro s hinv hb
  obtain ⟨hR, herr0, hnoinv0, hprime0⟩ := hinv.busy_clear hb
  have hcode0 : s.errcode = .none := by
    by_contra hne
    exact absurd (hinv.err_iff.mpr hne) (by rw [herr0]; decide)
  obtain ⟨hbusy, hdone, herr, hnoinv, hprime, hovr, hrngrdy, -, herrcode, -⟩ := statusWord_fields s
  refine ⟨⟨hbusy.trans hb, hdone.trans (hinv.busy_not_done hb), herr.trans herr0, hnoinv.trans hnoinv0,
    hprime.trans hprime0, hovr, hrngrdy, herrcode.trans ((errcode_zero_iff _).mpr hcode0)⟩, fun i hi => ?_⟩
  calc memRead Config.L (0x4000 + 4 * i) s = limb s.regR i := memRead_limb Config.L L_bounds.2 .r i hi s
    _ = 0 := by rw [hR, limb_zero]

/-- Settles O38: the map answers a reserved word with neither a value nor an effect, and the words of STATUS and CTRL hold and take
their own bits alone. -/
theorem reservedWordsAndBitsAreInert : Obligations.ReservedWordsAndBitsAreInert := by
  refine ⟨fun L addr v s _ _ h4 h => ⟨memRead_reserved L addr s h4 h,
    memWrite_reserved L addr v s (decodeAddr_of_reserved L addr h4 h)⟩, fun s => ?_, fun v w s h1 h5 => ?_, fun v w s h0 => ?_⟩
  · obtain ⟨-, -, -, -, -, -, -, hbit7, -, hlt⟩ := statusWord_fields s
    refine ⟨hbit7, hlt, ?_⟩
    rw [ctrlWord_eq]
    cases s.ie <;> decide
  · rw [writeStatus, writeStatus, h1, h5]
  · rw [writeCtrl, writeCtrl, h0]

/-! ### What a write does -/

/-- A write to a reserved word or to any word of the bank of R does nothing (20_memory.md R64 line 2). -/
theorem memWrite_inert (L addr : Nat) (v : Word) (s : State) (h4 : addr % 4 = 0)
    (h : ReservedWord L addr ∨ (0x4000 ≤ addr ∧ addr < 0x5000)) : memWrite L addr v s = .next s := by
  rcases h with h | ⟨h1, h2⟩
  · exact memWrite_reserved L addr v s (decodeAddr_of_reserved L addr h4 h)
  · rcases decodeAddr_bank_cases L addr .r h4 h1 h2 with ⟨i, -, -, hd⟩ | ⟨-, hd⟩
    · exact memWrite_result L addr i v s hd
    · exact memWrite_reserved L addr v s hd

/-- A word below the bank of R that is neither STATUS nor reserved is one the engine owns (20_memory.md R64 line 3, R67). -/
theorem memWrite_owned_busy (L addr : Nat) (v : Word) (s : State) (h4 : addr % 4 = 0) (hw : addr < 0x4000) (hs : addr ≠ 0x0004)
    (hres : ¬ ReservedWord L addr) (hb : s.busy = true) : memWrite L addr v s = .next (dropWrite s) := by
  obtain ⟨-, hstatus, -⟩ := addr_of_decodeAddr L addr h4 (by omega)
  refine memWrite_busy L addr v s hb (fun h => hs (hstatus h)) (fun h => ?_) fun i h => ?_
  · rcases decodeAddr_cases L addr h4 (by omega) with ⟨-, e⟩ | ⟨-, e⟩ | ⟨-, e⟩ | ⟨-, e⟩ | ⟨-, e⟩ | ⟨-, e⟩ | ⟨-, e⟩ |
      ⟨_, _, -, -, -, e⟩ | ⟨hr, -⟩
    case inr.inr.inr.inr.inr.inr.inr.inr => exact hres hr
    all_goals exact absurd (h.symm.trans e) nofun
  · obtain ⟨-, -, hge, -⟩ := decodeAddr_limb_inv L addr .r i h
    exact absurd hge (by dsimp only [bankBase]; omega)

/-- A word of the window beyond SEED_HI that is neither reserved nor in the bank of R is a limb of A, B or N (20_memory.md R65). -/
theorem operand_of_addr (L addr : Nat) (h4 : addr % 4 = 0) (hw : addr < 0x8000) (hlow : 0x0018 < addr)
    (hinert : ¬ (ReservedWord L addr ∨ (0x4000 ≤ addr ∧ addr < 0x5000))) :
    ∃ k i, k ≠ .r ∧ i < L ∧ addr = bankBase k + 4 * i ∧ addr < bankBase k + 0x1000 ∧ decodeAddr L addr = .limb k i := by
  rcases decodeAddr_cases L addr h4 hw with ⟨ha, -⟩ | ⟨ha, -⟩ | ⟨ha, -⟩ | ⟨ha, -⟩ | ⟨ha, -⟩ | ⟨ha, -⟩ | ⟨ha, -⟩ |
    ⟨k, i, hi, ha, hlt, hd⟩ | ⟨hr, -⟩
  case inr.inr.inr.inr.inr.inr.inr.inl =>
    refine ⟨k, i, ?_, hi, ha, hlt, hd⟩
    rintro rfl
    exact hinert (.inr ⟨by rw [ha]; exact Nat.le_add_right _ _, hlt⟩)
  case inr.inr.inr.inr.inr.inr.inr.inr => exact absurd (.inl hr) hinert
  all_goals omega

/-- A new low half of SEED beside the old high half (20_memory.md R64 line 6). -/
theorem writeSeedLo_seed_toNat (v : Word) (s : State) :
    (writeSeedLo v s).seed.toNat = s.seed.toNat / 2 ^ 32 * 2 ^ 32 + v.toNat := by
  rw [writeSeedLo_seed, BitVec.toNat_append, seedHi_toNat, ← Nat.shiftLeft_add_eq_or_of_lt v.isLt, Nat.shiftLeft_eq]

theorem writeSeedHi_seed_toNat (v : Word) (s : State) :
    (writeSeedHi v s).seed.toNat = v.toNat * 2 ^ 32 + s.seed.toNat % 2 ^ 32 := by
  rw [writeSeedHi_seed, BitVec.toNat_append, ← Nat.shiftLeft_add_eq_or_of_lt (BitVec.isLt _), seedLo_toNat, Nat.shiftLeft_eq]

theorem setLimb_limb_same (x i : Nat) (v : Word) : setLimb x i v / 2 ^ (32 * i) % 2 ^ 32 = v.toNat := by
  rw [← limb_toNat, limb_setLimb_same]

theorem setLimb_limb_ne (x i : Nat) (v : Word) (j : Nat) (hj : j ≠ i) :
    setLimb x i v / 2 ^ (32 * j) % 2 ^ 32 = x / 2 ^ (32 * j) % 2 ^ 32 := by
  rw [← limb_toNat, limb_setLimb_ne x i j v hj, limb_toNat]

theorem writeCmd_legal (v : Word) (s : State) (i : Instr) (h : decode v = .ok i) : writeCmd v s = exec i s := by
  simp only [writeCmd, h]

theorem writeCmd_illegal (v : Word) (s : State) (h : ∀ i, decode v ≠ .ok i) : writeCmd v s = .next (launchIllegal s) := by
  rcases writeCmd_cases v s with ⟨i, hi, -⟩ | ⟨_, -, e⟩
  · exact absurd hi (h i)
  · exact e

/-- Settles O36: each of the words named is one the engine owns. -/
theorem writeWhileBusyIsDropped : Obligations.WriteWhileBusyIsDropped := by
  intro s addr v rest hagent hscript hb haddr
  have hL := L_bounds
  have howned : addr % 4 = 0 ∧ addr < 0x4000 ∧ addr ≠ 0x0004 ∧ ¬ ReservedWord Config.L addr := by
    rcases haddr with h | h | h | h | h | h | ⟨i, hi, h | h | h⟩ <;> subst h <;> omega
  obtain ⟨h4, hw, hs, hres⟩ := howned
  rw [step_write hagent hscript h4 (by omega), memWrite_owned_busy Config.L addr v (s.afterItem rest) h4 hw hs hres hb]
  rfl

/-- Settles O35, line by line of the rule, each by the law of `memWrite` for that line. -/
theorem writeFollowsTheFirstMatchingLine : Obligations.WriteFollowsTheFirstMatchingLine := by
  intro s addr v rest hagent hscript h4 hw p
  have hstep : step s = memWrite Config.L addr v p := step_write hagent hscript h4 hw
  have htarget : s.busy = false → ∀ t, decodeAddr Config.L addr = t → t ≠ .cmd → step s = .next (writeTarget t v p) :=
    fun hb t ht hne => by rw [hstep, memWrite_idle Config.L addr v p hb (ht ▸ hne), ht]
  by_cases hstatus : addr = 0x0004
  · rw [if_pos hstatus]
    subst hstatus
    exact hstep.trans (memWrite_status _ _ v p rfl)
  rw [if_neg hstatus]
  by_cases hinert : ReservedWord Config.L addr ∨ (0x4000 ≤ addr ∧ addr < 0x5000)
  · rw [if_pos hinert]
    exact hstep.trans (memWrite_inert _ _ v p h4 hinert)
  rw [if_neg hinert]
  by_cases hbusy : s.busy = true
  · rw [if_pos hbusy]
    exact hstep.trans (memWrite_owned_busy _ _ v p h4 (by omega) hstatus (fun h => hinert (.inl h)) hbusy)
  rw [if_neg hbusy]
  replace hbusy : s.busy = false := Bool.eq_false_iff.mpr hbusy
  split_ifs with hcmd hctrl hiters hbits hlo hhi
  · subst hcmd
    rw [hstep, memWrite_cmd Config.L v p hbusy]
    exact ⟨fun i => writeCmd_legal v p i, writeCmd_illegal v p⟩
  · exact htarget hbusy .ctrl (by subst hctrl; rfl) nofun
  · exact htarget hbusy .iters (by subst hiters; rfl) nofun
  · exact htarget hbusy .bits (by subst hbits; rfl) nofun
  · exact ⟨_, htarget hbusy .seedLo (by subst hlo; rfl) nofun, writeSeedLo_seed_toNat v p⟩
  · exact ⟨_, htarget hbusy .seedHi (by subst hhi; rfl) nofun, writeSeedHi_seed_toNat v p⟩
  · intro j
    obtain ⟨k, i, hk, hi, ha, hlt, hd⟩ := operand_of_addr Config.L addr h4 hw (by omega) hinert
    obtain rfl : j = i := by cases k <;> dsimp only [bankBase] at ha hlt <;> omega
    have hwrite := htarget hbusy _ hd nofun
    refine ⟨hi, setLimb (readBank k s) j v, readBank k s, ?_, setLimb_limb_same _ j v, setLimb_limb_ne _ j v⟩
    cases k <;> dsimp only [bankBase] at ha hlt
    case a => exact .inl ⟨by omega, rfl, hwrite⟩
    case b => exact .inr (.inl ⟨by omega, rfl, hwrite⟩)
    case n => exact .inr (.inr ⟨by omega, rfl, hwrite⟩)
    case r => exact absurd rfl hk

/-! ### What stays while a command is in flight -/

/-- Settles O46: the host's writes in IDLE are out, and the engine's step leaves the inputs and CUR alone. -/
theorem operandsAreConstantWhileBusy : Obligations.OperandsAreConstantWhileBusy := by
  intro s t hb hreset h
  cases stepTo_of_step s t h with
  | paramWrite _ _ _ _ _ _ hbusy => exact absurd (hb.symm.trans hbusy) nofun
  | limbWrite _ _ _ _ _ _ hbusy => exact absurd (hb.symm.trans hbusy) nofun
  | started _ _ _ _ _ hbusy => exact absurd (hb.symm.trans hbusy) nofun
  | errored _ _ _ _ _ hbusy => exact absurd (hb.symm.trans hbusy) nofun
  | reset hagent => exact absurd hagent hreset
  | worked i =>
    obtain ⟨hA, hB, hN, hit, hbi, hse, hie⟩ := sameInputs_engineWork i (popTurn s)
    refine ⟨hA, hB, hN, hit, hbi, hse, hie, ?_⟩
    rcases engineWork_cases i (popTurn s) with ⟨-, S, e⟩ | ⟨x, f, q, g, y, e, -⟩ <;> rw [e]
    · exact ⟨rfl, fun _ => ⟨rfl, rfl, rfl⟩⟩
    · exact ⟨rfl, nofun⟩
  | _ => exact ⟨rfl, rfl, rfl, rfl, rfl, rfl, rfl, rfl, fun _ => ⟨rfl, rfl, rfl⟩⟩

end Sys2Proof.Machine

/-! ## The command word, the launch, and the runs of `WR` and `RD` (family 30_encoding)

First what the decoder accepts, then which error code a launch ends with, then a bank written and
read limb by limb. -/

namespace Sys2Proof

/-! ### The command word -/

/-- The decoder's opcode map names no opcode but a command's own (30_encoding.md R91). -/
theorem eq_opcode_of_decodeOpcode (o : Opcode) (i : Instr) (h : decodeOpcode o = .ok i) : o = opcode i := by
  unfold decodeOpcode at h
  split at h <;> cases h <;> exact BitVec.eq_of_toNat_eq (by assumption)

/-- A command word is its two fields, MBZ above OPC (30_encoding.md R90). -/
theorem mbzField_append_opcField (v : Word) : mbzField v ++ opcField v = v := by
  ext k hk
  simp only [mbzField, opcField, BitVec.getElem_append, BitVec.getElem_extractLsb']
  split
  · rw [Nat.zero_add, BitVec.getLsbD_eq_getElem]
  next hge => rw [← BitVec.getLsbD_eq_getElem hk, Nat.add_sub_cancel' (Nat.le_of_not_lt hge)]

theorem decode_eq_ok_iff (v : Word) (i : Instr) : decode v = .ok i ↔ v = encode i := by
  refine ⟨fun h => ?_, fun h => h ▸ decode_encode i⟩
  by_cases hmbz : mbzField v = 0
  · rw [decode_of_mbz_zero v hmbz] at h
    rw [← mbzField_append_opcField v, hmbz, eq_opcode_of_decodeOpcode _ i h, encode]
  · rw [decode_of_mbz_set v hmbz] at h
    cases h

/-- The bits of the nine command words: nothing above bit 7, and one of the nine opcodes (30_encoding.md R91). -/
theorem encode_toNat (i : Instr) : (encode i).toNat / 256 = 0 ∧
    (encode i).toNat % 256 ∈ [0x01, 0x02, 0x03, 0x04, 0x05, 0x06, 0x07, 0x10, 0x11] := by
  cases i <;> decide

/-- Settles O6, by `decode_eq_ok_iff` and the nine words. -/
theorem decoderAcceptsExactlyTheNineWords : Obligations.DecoderAcceptsExactlyTheNineWords :=
  ⟨decode_eq_ok_iff, rfl, rfl, rfl, rfl, rfl, rfl, rfl, rfl, rfl⟩

/-- Settles O7: each word written out is the encoding of its command. -/
theorem writtenOutWordsDecode : Obligations.WrittenOutWordsDecode :=
  ⟨decode_encode .gcd, decode_encode .powmod, decode_encode .mkprime, decode_encode .mulmod, decode_encode .rngclear⟩

end Sys2Proof

namespace Sys2Proof.Machine

/-! ### The host's write to CMD in IDLE -/

theorem step_write_cmd {s : State} {v : Word} {rest : List HostOp} (hagent : nextAgent s = .host)
    (hscript : s.script = .write 0x0000 4 v :: rest) (hb : s.busy = false) : step s = writeCmd v (s.afterItem rest) := by
  rw [step_write hagent hscript rfl (by decide), memWrite_cmd Config.L v (s.afterItem rest) hb]

/-- Settles O3, by the law of the write to CMD. -/
theorem stepRunsTheCommandTheHostWrites : Obligations.StepRunsTheCommandTheHostWrites := by
  intro s v rest i hagent hscript hb hdecode _
  rw [step_write_cmd hagent hscript hb, writeCmd_legal v _ i hdecode]

/-- Settles O5: an illegal word is the encoding of no command, so the decoder accepts it for none. -/
theorem illegalWordEndsWithIllcmd : Obligations.IllegalWordEndsWithIllcmd := by
  intro s v rest hagent hscript hb hillegal
  have hdecode : ∀ i, decode v ≠ .ok i := by
    intro i h
    obtain ⟨hmbz, hopc⟩ := encode_toNat i
    rw [← (decode_eq_ok_iff v i).mp h] at hmbz hopc
    exact hillegal.elim (fun hne => hne hmbz) fun hnot => hnot hopc
  rw [step_write_cmd hagent hscript hb, writeCmd_illegal v _ hdecode]
  rfl

/-! ### The launch check by its three conditions -/

/-- The condition of MODZERO (30_encoding.md R95, code 2). -/
abbrev ModzeroHolds (i : Instr) (s : State) : Prop :=
  (i = .modred ∨ i = .mulmod ∨ i = .modinv ∨ i = .powmod) ∧ s.regN = 0

/-- The condition of PARAM in an NTE of width `W` (30_encoding.md R95, code 3). -/
abbrev ParamHolds (W : Nat) (i : Instr) (s : State) : Prop :=
  ((i = .isprime ∨ i = .mkprime) ∧ s.iters.toNat = 0) ∨ (i = .mkprime ∧ W < s.bits.toNat)

/-- The condition of RNGSTATE (30_encoding.md R95, code 4). -/
abbrev RngstateHolds (i : Instr) (s : State) : Prop :=
  ((i = .isprime ∨ i = .mkprime ∨ i = .rngclear) ∧ s.rngrdy = false) ∨ (i = .rnginit ∧ s.rngrdy = true)

/-- The launch check gives the lowest code whose condition holds (60_exceptions.md R246). -/
theorem launchCheck_eq (W : Nat) (i : Instr) (s : State) : launchCheck W i s =
    if ModzeroHolds i s then .modzero else if ParamHolds W i s then .param else if RngstateHolds i s then .rngstate else .none := by
  cases i with
  | gcd | modinv | powmod | modred | mulmod => simp [launchCheck, ModzeroHolds, ParamHolds, RngstateHolds]
  | isprime | mkprime | rnginit | rngclear =>
    rcases Bool.eq_false_or_eq_true s.rngrdy with hr | hr <;> simp [launchCheck, ModzeroHolds, ParamHolds, RngstateHolds, hr]

theorem launch_errcode (i : Instr) (c : ErrCode) (s : State) : (launch i c s).errcode = c := by
  rcases launch_cases i c s with ⟨rfl, e⟩ | ⟨-, e⟩ <;> rw [e] <;> rfl

theorem launch_busy_iff (i : Instr) (c : ErrCode) (s : State) (hb : s.busy = false) :
    (launch i c s).busy = true ↔ c = .none := by
  rcases launch_cases i c s with ⟨hc, e⟩ | ⟨hc, e⟩ <;> rw [e]
  · exact iff_of_true rfl hc
  · exact iff_of_false (by simp [hb]) hc

/-- Settles O29: none of the three conditions holds, so the launch passes its check. -/
theorem launchThatPassesItsChecksStartsTheCommand : Obligations.LaunchThatPassesItsChecksStartsTheCommand := by
  intro i s hb hmod hprime hbits hinit hclear
  have hmodzero : ¬ ModzeroHolds i s := fun ⟨hi, h0⟩ => hmod hi h0
  have hparam : ¬ ParamHolds Config.W i s := by
    rintro (⟨hi, h0⟩ | ⟨hi, hlt⟩)
    · exact (hprime hi).1 h0
    · exact absurd hlt (Nat.not_lt.mpr (hbits hi))
  have hrngstate : ¬ RngstateHolds i s := by
    rintro (⟨hi, hr⟩ | ⟨hi, hr⟩)
    · have hready : s.rngrdy = true := by
        rcases hi with hi | hi | hi
        · exact (hprime (.inl hi)).2
        · exact (hprime (.inr hi)).2
        · exact hclear hi
      exact absurd (hr.symm.trans hready) nofun
    · exact absurd (hr.symm.trans (hinit hi)) nofun
  rw [exec_idle i s hb, launchCheck_eq, if_neg hmodzero, if_neg hparam, if_neg hrngstate, launch_passed]
  rfl

/-- Settles O30: the code of an illegal word is ILLCMD, and that of a command's launch is its check's, read off `launchCheck_eq`. -/
theorem launchChecksReportTheLowestCode : Obligations.LaunchChecksReportTheLowestCode := by
  intro s v hb
  rcases writeCmd_cases v s with ⟨i, hi, e⟩ | ⟨_, herr, e⟩
  · refine ⟨launch i (launchCheck Config.W i s) s, e.trans (exec_idle i s hb), ?_, fun h => absurd hi (h i), fun j hj => ?_⟩
    · rw [launch_busy_iff i _ s hb, launch_errcode]
    · obtain rfl : j = i := by
        rw [hj] at hi
        injection hi
      rw [launch_errcode, launchCheck_eq]
      refine ⟨fun h2 => if_pos h2, fun ⟨h2, h3⟩ => ?_, fun ⟨h2, h3, h4⟩ => ?_, fun ⟨h2, h3, h4⟩ => ?_⟩
      · rw [if_neg h2, if_pos h3]
      · rw [if_neg h2, if_neg h3, if_pos h4]
      · rw [if_neg h2, if_neg h3, if_neg h4]
  · refine ⟨launchIllegal s, e, iff_of_false ?_ nofun, fun _ => rfl, fun i hi => ?_⟩
    · exact Bool.eq_false_iff.mp hb
    · rw [hi] at herr
      cases herr

/-! ### One turn of an idle host with no turns listed -/

theorem run_one_next {s t : State} (h : step s = .next t) : runSteps 1 s = .next t := by
  rw [run_succ_next 0 s t h, run_zero]

section IdleHost

variable {s : State} {rest : List HostOp}

theorem nextAgent_idle (hb : s.busy = false) (hturns : s.turns = []) : nextAgent s = .host := by
  simp [nextAgent, hb, hturns]

theorem afterItem_of_no_turns (hturns : s.turns = []) : s.afterItem rest = { s with script := rest } := by
  rw [State.afterItem, hturns]
  rfl

variable {k : Bank} {i : Nat}

/-- The access to limb `i` of a bank is one the bus can carry (20_memory.md R65, R69). -/
theorem limbAddr_ok (k : Bank) (hi : i < Config.L) : (bankBase k + 4 * i) % 4 = 0 ∧ bankBase k + 4 * i < 0x8000 := by
  have hL := L_bounds
  cases k <;> dsimp only [bankBase] <;> omega

theorem step_write_limb {v : Word} (hb : s.busy = false) (hturns : s.turns = []) (hi : i < Config.L)
    (hscript : s.script = .write (bankBase k + 4 * i) 4 v :: rest) :
    step s = .next (writeLimb k i v { s with script := rest }) := by
  obtain ⟨h4, hw⟩ := limbAddr_ok k hi
  have hd := decodeAddr_bank Config.L L_bounds.2 k i hi
  rw [step_write (nextAgent_idle hb hturns) hscript h4 hw, afterItem_of_no_turns hturns,
    memWrite_idle Config.L _ v { s with script := rest } hb (by rw [hd]; nofun), hd, writeTarget]

theorem step_read_limb (hb : s.busy = false) (hturns : s.turns = []) (hi : i < Config.L)
    (hscript : s.script = .read (bankBase k + 4 * i) 4 :: rest) :
    step s = .next (recordRead (limb (readBank k s) i) { s with script := rest }) := by
  obtain ⟨h4, hw⟩ := limbAddr_ok k hi
  rw [step_read (nextAgent_idle hb hturns) hscript h4 hw, memRead_limb Config.L L_bounds.2 k i hi,
    afterItem_of_no_turns hturns]

end IdleHost

/-! ### `WR X, v` -/

/-- The number in a register that held `x` once the `n` lowest limbs of `v` are written. -/
def partlyWritten (x v n : Nat) : Nat := v % 2 ^ (32 * n) + 2 ^ (32 * n) * (x / 2 ^ (32 * n))

theorem partlyWritten_zero (x v : Nat) : partlyWritten x v 0 = x := by
  simp [partlyWritten, Nat.mod_one]

theorem partlyWritten_succ (x v n : Nat) : setLimb (partlyWritten x v n) n (limb v n) = partlyWritten x v (n + 1) := by
  have hp : 0 < 2 ^ (32 * n) := Nat.two_pow_pos _
  have hlow : partlyWritten x v n % 2 ^ (32 * n) = v % 2 ^ (32 * n) := by
    rw [partlyWritten, Nat.add_mul_mod_self_left, Nat.mod_mod]
  have hhigh : partlyWritten x v n / 2 ^ (32 * n) = x / 2 ^ (32 * n) := by
    rw [partlyWritten, Nat.add_mul_div_left _ _ hp, Nat.div_eq_of_lt (Nat.mod_lt _ hp), Nat.zero_add]
  rw [setLimb_eq, hlow, limb_toNat, pow_limb_succ, ← Nat.div_div_eq_div_mul, hhigh, partlyWritten, pow_limb_succ, Nat.mod_mul,
    Nat.div_div_eq_div_mul]
  ring

theorem partlyWritten_all (x v n : Nat) (hx : x < 2 ^ (32 * n)) (hv : v < 2 ^ (32 * n)) : partlyWritten x v n = v := by
  rw [partlyWritten, Nat.mod_eq_of_lt hv, Nat.div_eq_of_lt hx, Nat.mul_zero, Nat.add_zero]

/-- The state with the number `x` in the register of a bank, but for R, which the host cannot write (10_state.md R23). -/
def writeBank (k : Bank) (x : Nat) (s : State) : State :=
  match k with
  | .a => { s with regA := x }
  | .b => { s with regB := x }
  | .n => { s with regN := x }
  | .r => s

theorem writeBank_readBank (k : Bank) (s : State) : writeBank k (readBank k s) s = s := by
  cases k <;> rfl

/-- The next limb of a register that `writeBank` has written already, with the host's items before and after. -/
theorem writeLimb_writeBank (k : Bank) (x i : Nat) (v : Word) (s : State) (sc sc' : List HostOp) :
    writeLimb k i v { { writeBank k x s with script := sc } with script := sc' } =
      { writeBank k (setLimb x i v) s with script := sc' } := by
  cases k <;> simp only [writeLimb, writeBank]

@[simp] theorem writeBank_busy (k : Bank) (x : Nat) (s : State) : (writeBank k x s).busy = s.busy := by
  cases k <;> rfl

@[simp] theorem writeBank_turns (k : Bank) (x : Nat) (s : State) : (writeBank k x s).turns = s.turns := by
  cases k <;> rfl

/-- The first `n` accesses of a `WR X, v` in IDLE, by induction on `n`. -/
theorem run_write_limbs (k : Bank) (v : Nat) (s : State) (hb : s.busy = false) (hturns : s.turns = []) (n : Nat)
    (hn : n ≤ Config.L) (rest : List HostOp) (hscript : s.script = hostWr n k v ++ rest) :
    runSteps n s = .next { writeBank k (partlyWritten (readBank k s) v n) s with script := rest } := by
  induction n generalizing rest with
  | zero =>
    obtain rfl : rest = s.script := hscript.symm
    rw [run_zero, partlyWritten_zero, writeBank_readBank]
  | succ n ih =>
    have hfirst := ih (by omega) (.write (bankBase k + 4 * n) 4 (limb v n) :: rest)
      (by rw [hscript, hostWr, List.range_succ, List.map_append, List.append_assoc]; rfl)
    rw [run_add n 1 s _ hfirst, run_one_next (step_write_limb (by simpa using hb) (by simpa using hturns) hn rfl),
      writeLimb_writeBank, partlyWritten_succ]

/-- `WR X, v` in IDLE leaves X = v, for A, B and N; for R it changes nothing (30_encoding.md R97, 10_state.md R23). -/
theorem run_hostWr (k : Bank) (v : Nat) (s : State) (rest : List HostOp) (hb : s.busy = false) (hturns : s.turns = [])
    (hx : readBank k s < 2 ^ Config.W) (hv : v < 2 ^ Config.W) (hscript : s.script = hostWr Config.L k v ++ rest) :
    runSteps Config.L s = .next { writeBank k v s with script := rest } := by
  rw [run_write_limbs k v s hb hturns Config.L le_rfl rest hscript, partlyWritten_all _ v _ hx hv]

/-- Settles O54: `run_hostWr` for the bank of N. -/
theorem hostWriteOfAnOperandSetsIt : Obligations.HostWriteOfAnOperandSetsIt :=
  fun s v rest hb hturns hx hv hscript => run_hostWr .n v s rest hb hturns hx hv hscript

/-! ### `RD X` -/

/-- The words that the first `n` accesses of an `RD X` read from a register that holds `x`, newest first. -/
def limbsRead (x : Nat) : (n : Nat) → List Word
  | 0 => []
  | n + 1 => limb x n :: limbsRead x n

theorem length_limbsRead (x n : Nat) : (limbsRead x n).length = n := by
  induction n with
  | zero => rfl
  | succ n ih => rw [limbsRead, List.length_cons, ih]

/-- A word read later stands above the words read before it (30_encoding.md R97). -/
theorem limbsValue_cons (w : Word) (ws : List Word) :
    limbsValue (w :: ws) = w.toNat * 2 ^ (32 * ws.length) + limbsValue ws := by
  have hfold : ∀ x, ws.foldl (fun x w => x * 2 ^ 32 + w.toNat) x = x * 2 ^ (32 * ws.length) + limbsValue ws := by
    induction ws with
    | nil => intro x; simp [limbsValue]
    | cons u us ih =>
      intro x
      rw [limbsValue, List.foldl_cons, List.foldl_cons, ih, ih, List.length_cons, pow_limb_succ]
      ring
  rw [← hfold, limbsValue, List.foldl_cons, Nat.zero_mul, Nat.zero_add]

theorem limbsValue_limbsRead (x n : Nat) : limbsValue (limbsRead x n) = x % 2 ^ (32 * n) := by
  induction n with
  | zero => simp [limbsRead, limbsValue, Nat.mod_one]
  | succ n ih =>
    rw [limbsRead, limbsValue_cons, ih, length_limbsRead, limb_toNat, pow_limb_succ, Nat.mod_mul]
    ring

theorem readBank_withEnv (k : Bank) (s : State) (sc : List HostOp) (rs : List Word) :
    readBank k { s with script := sc, reads := rs } = readBank k s := by
  cases k <;> rfl

/-- The first `n` accesses of an `RD X` in IDLE, by induction on `n`. -/
theorem run_read_limbs (k : Bank) (s : State) (hb : s.busy = false) (hturns : s.turns = []) (n : Nat)
    (hn : n ≤ Config.L) (rest : List HostOp) (hscript : s.script = hostRd n k ++ rest) :
    runSteps n s = .next { s with script := rest, reads := limbsRead (readBank k s) n ++ s.reads } := by
  induction n generalizing rest with
  | zero =>
    obtain rfl : rest = s.script := hscript.symm
    rfl
  | succ n ih =>
    have hfirst := ih (by omega) (.read (bankBase k + 4 * n) 4 :: rest)
      (by rw [hscript, hostRd, List.range_succ, List.map_append, List.append_assoc]; rfl)
    rw [run_add n 1 s _ hfirst, run_one_next (step_read_limb (by exact hb) (by exact hturns) hn rfl), readBank_withEnv]
    rfl

/-- `RD X` in IDLE reads the limbs of X and changes nothing else (30_encoding.md R97). -/
theorem run_hostRd (k : Bank) (s : State) (rest : List HostOp) (hb : s.busy = false) (hturns : s.turns = [])
    (hscript : s.script = hostRd Config.L k ++ rest) :
    runSteps Config.L s = .next { s with script := rest, reads := limbsRead (readBank k s) Config.L ++ s.reads } :=
  run_read_limbs k s hb hturns Config.L le_rfl rest hscript

/-- Settles O55: the words are the limbs of R, whose value is R modulo 2^W. -/
theorem hostReadOfTheResultGivesIt : Obligations.HostReadOfTheResultGivesIt := by
  intro s rest hb hturns hR hscript
  refine ⟨limbsRead s.regR Config.L, run_hostRd .r s rest hb hturns hscript, length_limbsRead _ _, ?_⟩
  rw [limbsValue_limbsRead, ← W_eq, Nat.mod_eq_of_lt hR]

end Sys2Proof.Machine

/-! ## The commands with a modulus, and the reduction unit (family 40_arith_modred_mulmod)

With N not 0 the launch check of the four commands with a modulus holds, so a busy engine takes its step; for MODRED and MULMOD
that step is the reduction itself. -/

namespace Sys2Proof.Machine

/-- MODZERO is the only code that a command with a modulus can meet (30_encoding.md R95). -/
theorem launchCheck_of_regN_ne_zero (W : Nat) (i : Instr) (s : State)
    (hi : i = .modinv ∨ i = .powmod ∨ i = .modred ∨ i = .mulmod) (hN : s.regN ≠ 0) : launchCheck W i s = .none := by
  rcases hi with rfl | rfl | rfl | rfl <;> exact if_neg hN

theorem exec_busy_of_regN_ne_zero (i : Instr) (s : State) (hi : i = .modinv ∨ i = .powmod ∨ i = .modred ∨ i = .mulmod)
    (hb : s.busy = true) (hN : s.regN ≠ 0) : exec i s = .next (engineWork i s) :=
  exec_busy i s hb (launchCheck_of_regN_ne_zero Config.W i s hi hN)

/-- Settles O8: the launch check still holds since N is not 0, and the engine's step on MODRED is the residue and the completion. -/
theorem modredCompletesWithTheResidue : Obligations.ModredCompletesWithTheResidue := fun s hb hN =>
  exec_busy_of_regN_ne_zero .modred s (by simp) hb hN

/-- Settles O9: as for MODRED, and the engine's step on MULMOD reduces the product over the unbounded naturals. -/
theorem mulmodCompletesWithTheResidueOfTheProduct : Obligations.MulmodCompletesWithTheResidueOfTheProduct := fun s hb hN =>
  exec_busy_of_regN_ne_zero .mulmod s (by simp) hb hN

end Sys2Proof.Machine

/-! ## The greatest common divisor (family 41_gcd)

GCD has no launch condition, so a busy engine always takes its step; with at least `b` passes the Euclidean loop ends with the
second number 0, and every pass keeps the greatest common divisor of the pair. -/

namespace Sys2Proof.Machine

/-- With enough fuel the loop of R140 gives the greatest common divisor: a pass turns the pair `a, b` into `b, a % b`, which has
the same divisors and a smaller second number. -/
theorem gcdLoop_eq_gcd (fuel a b : Nat) (hfuel : b ≤ fuel) : gcdLoop fuel a b = Nat.gcd a b := by
  induction fuel generalizing a b with
  | zero =>
    obtain rfl : b = 0 := Nat.le_zero.mp hfuel
    exact (Nat.gcd_zero_right a).symm
  | succ fuel ih =>
    rw [gcdLoop]
    split
    case isTrue hb => rw [hb, Nat.gcd_zero_right]
    case isFalse hb =>
      have hlt : a % b < b := Nat.mod_lt a (Nat.pos_of_ne_zero hb)
      calc gcdLoop fuel b (a % b)
        _ = Nat.gcd b (a % b) := ih b (a % b) (by omega)
        _ = Nat.gcd (a % b) b := Nat.gcd_comm b (a % b)
        _ = Nat.gcd b a := (Nat.gcd_rec b a).symm
        _ = Nat.gcd a b := Nat.gcd_comm b a

/-- The fuel of `gcdEuclid` is enough for every pair of operands (41_gcd.md R140). -/
theorem gcdEuclid_eq_gcd (a b : Nat) : gcdEuclid a b = Nat.gcd a b := gcdLoop_eq_gcd b a b le_rfl

/-- Settles O10: the engine's step on GCD is `gcdEuclid` and the completion. -/
theorem gcdCompletesWithTheGreatestCommonDivisor : Obligations.GcdCompletesWithTheGreatestCommonDivisor := by
  intro s hb
  rw [exec_busy .gcd s hb rfl, ← gcdEuclid_eq_gcd]
  rfl

end Sys2Proof.Machine

/-! ## The modular inverse (family 42_modinv)

Two facts about the extended Euclidean loop: its last remainder is that of the loop of GCD, and every pass keeps the congruence
`a * t ≡ r` modulo `n` between a remainder and its coefficient. So for `a` coprime to `n` the last coefficient is an inverse of `a`,
and its residue is the only one in range. -/

namespace Sys2Proof.Machine

/-- The remainders of the loop of R154 run as those of the loop of R140; the coefficients do not steer them. -/
theorem bezoutLoop_fst (fuel r r' : Nat) (t t' : Int) : (bezoutLoop fuel r r' t t').1 = gcdLoop fuel r r' := by
  induction fuel generalizing r r' t t' with
  | zero => rfl
  | succ fuel ih =>
    rw [bezoutLoop, gcdLoop]
    split
    · rfl
    · exact ih _ _ _ _

/-- The fuel of `modInv` is enough: its last remainder is the greatest common divisor (42_modinv.md R154). -/
theorem bezoutLoop_fst_eq_gcd (a n : Nat) : (bezoutLoop a n a 0 1).1 = Nat.gcd a n := by
  rw [bezoutLoop_fst, gcdLoop_eq_gcd a n a le_rfl, Nat.gcd_comm]

/-- One pass of the loop of R154: the new coefficient belongs to the new remainder. -/
theorem bezout_step {n a t t' : Int} {r r' : Nat} (h : a * t ≡ r [ZMOD n]) (h' : a * t' ≡ r' [ZMOD n]) :
    a * (t - (r / r' : Nat) * t') ≡ (r % r' : Nat) [ZMOD n] := by
  have hrem : ((r % r' : Nat) : Int) = r - (r / r' : Nat) * r' := by
    rw [Int.natCast_mod, Int.natCast_div, Int.emod_def, mul_comm]
  calc a * (t - (r / r' : Nat) * t')
    _ = a * t - (r / r' : Nat) * (a * t') := by ring
    _ ≡ r - (r / r' : Nat) * r' [ZMOD n] := h.sub (h'.mul_left _)
    _ = (r % r' : Nat) := hrem.symm

/-- The coefficient the loop of R154 answers belongs to the remainder it answers, whatever the fuel. -/
theorem mul_bezoutLoop_snd_modEq {n a : Int} (fuel r r' : Nat) (t t' : Int) (h : a * t ≡ r [ZMOD n])
    (h' : a * t' ≡ r' [ZMOD n]) :
    a * (bezoutLoop fuel r r' t t').2 ≡ (bezoutLoop fuel r r' t t').1 [ZMOD n] := by
  induction fuel generalizing r r' t t' with
  | zero => exact h
  | succ fuel ih =>
    rw [bezoutLoop]
    split
    · exact h
    · exact ih r' (r % r') t' _ h' (bezout_step h h')

/-- The coefficient of `a` that `modInv` reduces. -/
def bezoutCoeff (a n : Nat) : Int := (bezoutLoop a n a 0 1).2

/-- Bézout's identity modulo `n`: the loop starts with `a * 0 ≡ n` and `a * 1 ≡ a`. -/
theorem mul_bezoutCoeff_modEq (a n : Nat) : a * bezoutCoeff a n ≡ Nat.gcd a n [ZMOD n] := by
  have hstart : (a : Int) * 0 ≡ n [ZMOD n] := by simp [Int.ModEq]
  have h := mul_bezoutLoop_snd_modEq a n a 0 1 hstart (by rw [mul_one])
  rwa [bezoutLoop_fst_eq_gcd] at h

/-- R150's two cases, with the greatest common divisor in the place of the loop's remainder. -/
theorem modInv_eq (a n : Nat) :
    modInv a n = if 1 < Nat.gcd a n then (0, true) else ((bezoutCoeff a n % (n : Int)).toNat, false) := by
  rw [← bezoutLoop_fst_eq_gcd]
  rfl

/-- NOINV is exactly a common divisor above 1 (42_modinv.md R150). -/
theorem modInv_noinv_iff (a n : Nat) : (modInv a n).2 = true ↔ 1 < Nat.gcd a n := by
  rw [modInv_eq]
  split <;> simp [*]

/-- Without NOINV the operands are coprime (42_modinv.md R150). -/
theorem coprime_of_modInv_inverse {a n : Nat} (hn : n ≠ 0) (h : (modInv a n).2 = false) : Nat.Coprime a n := by
  have hle : ¬ 1 < Nat.gcd a n := by simp [← modInv_noinv_iff, h]
  have hpos : 0 < Nat.gcd a n := Nat.gcd_pos_of_pos_right a (Nat.pos_of_ne_zero hn)
  exact le_antisymm (not_lt.mp hle) hpos

/-- For coprime operands the answer is an inverse (42_modinv.md R155). -/
theorem mul_modInv_modEq_one {a n : Nat} (hn : n ≠ 0) (hco : Nat.Coprime a n) : a * (modInv a n).1 ≡ 1 [MOD n] := by
  have hfst : ((modInv a n).1 : Int) = bezoutCoeff a n % n := by
    rw [modInv_eq, if_neg (by simp [hco.gcd_eq_one])]
    exact Int.toNat_of_nonneg (Int.emod_nonneg _ (Int.natCast_ne_zero.mpr hn))
  rw [← Int.natCast_modEq_iff]
  calc ((a * (modInv a n).1 : Nat) : Int)
    _ = a * (bezoutCoeff a n % n) := by rw [Nat.cast_mul, hfst]
    _ ≡ a * bezoutCoeff a n [ZMOD n] := (Int.mod_modEq _ _).mul_left _
    _ ≡ Nat.gcd a n [ZMOD n] := mul_bezoutCoeff_modEq a n
    _ = (1 : Nat) := by rw [hco.gcd_eq_one]

/-- The answer is the only inverse in range, since a coprime factor cancels (42_modinv.md R150). -/
theorem eq_modInv_of_mul_modEq_one {a n y : Nat} (hco : Nat.Coprime a n) (hy : y < n) (hay : a * y ≡ 1 [MOD n]) :
    y = (modInv a n).1 := by
  have hn : 0 < n := Nat.zero_lt_of_lt hy
  have hmul : a * y ≡ a * (modInv a n).1 [MOD n] := hay.trans (mul_modInv_modEq_one hn.ne' hco).symm
  exact (hmul.cancel_left_of_coprime hco.symm).eq_of_lt_of_lt hy (modInv_fst_lt a n hn)

/-- From modulus 2 on, 0 is no inverse, so it is the sentinel (42_modinv.md R150). -/
theorem modInv_fst_eq_zero_iff {a n : Nat} (hn : 2 ≤ n) : (modInv a n).1 = 0 ↔ (modInv a n).2 = true := by
  refine ⟨fun hx => ?_, modInv_fst_of_noinv a n⟩
  by_contra hf
  have hn0 : n ≠ 0 := by omega
  have h := mul_modInv_modEq_one hn0 (coprime_of_modInv_inverse hn0 (by simpa using hf))
  rw [hx, Nat.mul_zero, Nat.ModEq, Nat.zero_mod, Nat.mod_eq_of_lt hn] at h
  exact zero_ne_one h

/-- Modulo 1 every number is coprime and 0 is the only residue, a true result (42_modinv.md R150). -/
theorem modInv_one (a : Nat) : modInv a 1 = (0, false) := by
  rw [modInv_eq, if_neg (by simp), Nat.cast_one, Int.emod_one]
  rfl

/-- Settles O11: the engine's step on MODINV is `modInv` and the completion, and the clauses are what the extended Euclidean loop
gives. -/
theorem modinvCompletesWithTheInverse : Obligations.ModinvCompletesWithTheInverse := by
  intro s hb hN
  refine ⟨(modInv s.regA s.regN).1, (modInv s.regA s.regN).2, exec_busy_of_regN_ne_zero .modinv s (by simp) hb hN,
    modInv_noinv_iff _ _, modInv_fst_of_noinv _ _, fun hf => ?inverse, modInv_fst_eq_zero_iff, fun h1 => ?modulusOne⟩
  case inverse =>
    have hco := coprime_of_modInv_inverse hN hf
    exact ⟨modInv_fst_lt _ _ (Nat.pos_of_ne_zero hN), mul_modInv_modEq_one hN hco,
      fun y hy hay => eq_modInv_of_mul_modEq_one hco hy hay⟩
  case modulusOne =>
    rw [h1, modInv_one]
    exact ⟨rfl, rfl⟩

end Sys2Proof.Machine

/-! ## The power (family 43_powmod)

Every pass of square-and-multiply keeps `v * p ^ d` modulo the modulus, and with at least `d` passes the loop ends at exponent 0
with that residue in the accumulator. Both POWMOD and MODINV depend on their argument only through its residue, and the four
commands with a modulus meet MODZERO when it is 0. -/

namespace Sys2Proof.Machine

/-- Modulus 0 is the one condition of MODZERO, the only code of the four commands with a modulus (30_encoding.md R95). -/
theorem launchCheck_of_regN_zero (W : Nat) (i : Instr) (s : State)
    (hi : i = .powmod ∨ i = .modinv ∨ i = .modred ∨ i = .mulmod) (hN : s.regN = 0) : launchCheck W i s = .modzero := by
  rcases hi with rfl | rfl | rfl | rfl <;> exact if_pos hN

/-- Settles O32: the launch check gives MODZERO, so the launch ends as an error completion. -/
theorem modulusZeroIsAnErrorAtLaunch : Obligations.ModulusZeroIsAnErrorAtLaunch := by
  intro s i hi hb hN
  rw [exec_idle i s hb, launchCheck_of_regN_zero Config.W i s hi hN, launch_failed i .modzero s nofun]
  rfl

/-- The accumulator after one pass of the loop of R167 at exponent `d`. -/
def multiplyStep (m v p d : Nat) : Nat := if d % 2 = 1 then v * p % m else v

theorem powLoop_zero_exponent (m fuel v p : Nat) : powLoop m fuel v p 0 = v := by
  cases fuel <;> rfl

theorem powLoop_succ (m fuel v p d : Nat) (hd : d ≠ 0) :
    powLoop m (fuel + 1) v p d = powLoop m fuel (multiplyStep m v p d) (p * p % m) (d / 2) := if_neg hd

theorem multiplyStep_mod (m v p d : Nat) (hv : v % m = v) : multiplyStep m v p d % m = multiplyStep m v p d := by
  unfold multiplyStep
  split
  · exact Nat.mod_mod _ _
  · exact hv

/-- The multiplication takes the exponent's last bit into the accumulator (43_powmod.md R167). -/
theorem multiplyStep_modEq (m v p d : Nat) : multiplyStep m v p d ≡ v * p ^ (d % 2) [MOD m] := by
  unfold multiplyStep
  rcases Nat.mod_two_eq_zero_or_one d with h | h
  · rw [h, if_neg zero_ne_one, pow_zero, mul_one]
  · rw [h, if_pos rfl, pow_one]
    exact Nat.mod_modEq _ _

/-- One pass of the loop of R167 keeps `v * p ^ d` modulo `m`: the squared base takes the other bits of the exponent. -/
theorem multiplyStep_mul_square_pow_modEq (m v p d : Nat) :
    multiplyStep m v p d * (p * p % m) ^ (d / 2) ≡ v * p ^ d [MOD m] :=
  calc multiplyStep m v p d * (p * p % m) ^ (d / 2)
    _ ≡ v * p ^ (d % 2) * (p * p) ^ (d / 2) [MOD m] := (multiplyStep_modEq m v p d).mul ((Nat.mod_modEq _ _).pow _)
    _ = v * p ^ (d % 2 + 2 * (d / 2)) := by rw [mul_assoc, ← sq, ← pow_mul, ← pow_add]
    _ = v * p ^ d := by rw [Nat.mod_add_div]

/-- With enough fuel the loop of R167 gives the residue of `v * p ^ d`, from a reduced accumulator. -/
theorem powLoop_eq (m fuel v p d : Nat) (hfuel : d ≤ fuel) (hv : v % m = v) : powLoop m fuel v p d = v * p ^ d % m := by
  induction fuel generalizing v p d with
  | zero =>
    obtain rfl : d = 0 := Nat.le_zero.mp hfuel
    rw [powLoop_zero_exponent, pow_zero, mul_one, hv]
  | succ fuel ih =>
    by_cases hd : d = 0
    · rw [hd, powLoop_zero_exponent, pow_zero, mul_one, hv]
    · rw [powLoop_succ m fuel v p d hd, ih _ _ (d / 2) (by omega) (multiplyStep_mod m v p d hv)]
      exact multiplyStep_mul_square_pow_modEq m v p d

/-- The fuel of `powMod` is enough, and it computes the power's residue for every modulus (43_powmod.md R165). -/
theorem powMod_eq (b d m : Nat) : powMod b d m = b ^ d % m := by
  rw [powMod, powLoop_eq m d _ _ d le_rfl (Nat.mod_mod 1 m)]
  calc 1 % m * (b % m) ^ d % m
    _ = 1 * b ^ d % m := (Nat.mod_modEq 1 m).mul ((Nat.mod_modEq b m).pow d)
    _ = b ^ d % m := by rw [one_mul]

/-- Settles O12: the engine's step on POWMOD is `powMod` and the completion. -/
theorem powmodCompletesWithThePower : Obligations.PowmodCompletesWithThePower := by
  intro s hb hN
  rw [exec_busy_of_regN_ne_zero .powmod s (by simp) hb hN, ← powMod_eq]
  rfl

/-- Settles O13: the residue of O12 is below N, and modulus 1 and exponent 0 are read off it. -/
theorem powmodResultIsCanonical : Obligations.PowmodResultIsCanonical := by
  intro s hb hN
  refine ⟨_, powmodCompletesWithThePower s hb hN, Nat.mod_lt _ (Nat.pos_of_ne_zero hN), fun h1 => ?modulusOne,
    fun hB h2 => ?exponentZero⟩
  case modulusOne =>
    show s.regA ^ s.regB % s.regN = 0
    rw [h1, Nat.mod_one]
  case exponentZero =>
    show s.regA ^ s.regB % s.regN = 1
    rw [hB, pow_zero, Nat.mod_eq_of_lt h2]

/-- A power depends on its base through the base's residue (43_powmod.md R170). -/
theorem powMod_mod (b d m : Nat) : powMod (b % m) d m = powMod b d m := by
  rw [powMod_eq, powMod_eq, ← Nat.pow_mod]

/-- NOINV and the inverse depend on the argument through its residue, which has the same common divisors with `n` and the same
products modulo `n` (42_modinv.md R153). -/
theorem modInv_mod {a n : Nat} (hn : n ≠ 0) : modInv (a % n) n = modInv a n := by
  have hgcd : Nat.gcd (a % n) n = Nat.gcd a n := (Nat.mod_modEq a n).gcd_eq
  have hnoinv : (modInv (a % n) n).2 = (modInv a n).2 := by
    rw [Bool.eq_iff_iff, modInv_noinv_iff, modInv_noinv_iff, hgcd]
  refine Prod.ext ?inverse hnoinv
  case inverse =>
    cases hf : (modInv a n).2 with
    | true => rw [modInv_fst_of_noinv _ _ hf, modInv_fst_of_noinv _ _ (hnoinv.trans hf)]
    | false =>
      have hinv : a % n * (modInv (a % n) n).1 ≡ 1 [MOD n] :=
        mul_modInv_modEq_one hn (coprime_of_modInv_inverse hn (hnoinv.trans hf))
      exact eq_modInv_of_mul_modEq_one (coprime_of_modInv_inverse hn hf) (modInv_fst_lt _ _ (Nat.pos_of_ne_zero hn))
        (((Nat.mod_modEq a n).symm.mul_right _).trans hinv)

/-- The state with its argument reduced by its modulus. -/
def State.withResidueArgument (s : State) : State := { s with regA := s.regA % s.regN }

/-- The engine's step on POWMOD and MODINV gives the same results from the reduced argument. -/
theorem engineWork_withResidueArgument (i : Instr) (s : State) (hi : i = .powmod ∨ i = .modinv) (hN : s.regN ≠ 0) :
    engineWork i s.withResidueArgument = { engineWork i s with regA := s.regA % s.regN } := by
  rcases hi with rfl | rfl
  · simp only [engineWork, State.withResidueArgument, complete, powMod_mod]
  · simp only [engineWork, State.withResidueArgument, complete, modInv_mod hN]

/-- POWMOD and MODINV complete from the argument and from its residue alike. -/
theorem exec_withResidueArgument (i : Instr) (s : State) (hi : i = .powmod ∨ i = .modinv) (hb : s.busy = true)
    (hN : s.regN ≠ 0) :
    ∃ t, exec i s = .next t ∧ exec i s.withResidueArgument = .next { t with regA := s.regA % s.regN } := by
  have hmod : i = .modinv ∨ i = .powmod ∨ i = .modred ∨ i = .mulmod := hi.symm.elim .inl (.inr ∘ .inl)
  refine ⟨engineWork i s, exec_busy_of_regN_ne_zero i s hmod hb hN, ?_⟩
  rw [exec_busy_of_regN_ne_zero i s.withResidueArgument hmod hb hN, engineWork_withResidueArgument i s hi hN]

/-- Settles O14: both commands read the argument only through its residue. -/
theorem argumentAboveTheModulusActsAsItsResidue : Obligations.ArgumentAboveTheModulusActsAsItsResidue := fun s hb hN =>
  ⟨exec_withResidueArgument .powmod s (.inl rfl) hb hN, exec_withResidueArgument .modinv s (.inr rfl) hb hN⟩

end Sys2Proof.Machine

/-! ## The Miller-Rabin test (family 44_isprime)

ISPRIME is `isPrime` and the completion. Three facts about `isPrime` carry the claims: the halvings of N - 1 end at its odd part;
a round passes exactly where the strong pseudoprime test holds, which for a prime N every base below N but 0 does; and the rounds
take the queued draws one by one until one fails. -/

namespace Sys2Proof.Machine

/-! ### The engine's step on ISPRIME and the branches of its test -/

/-- With ITERS not 0 and the generator ready no code of the launch check holds for ISPRIME (30_encoding.md R95). -/
theorem launchCheck_isprime (W : Nat) (s : State) (hI : s.iters.toNat ≠ 0) (hr : s.rngrdy = true) :
    launchCheck W .isprime s = .none := by
  simp [launchCheck, hI, hr]

/-- ISPRIME in flight completes with the answer of `isPrime`, whichever it is (44_isprime.md R186). -/
theorem exec_isprime (s : State) (hb : s.busy = true) (hI : s.iters.toNat ≠ 0) (hr : s.rngrdy = true) {verdict : Bool}
    {S : RngState} (h : isPrime s.regN s.iters.toNat s.rng = (verdict, S)) :
    exec .isprime s = .next { s with
      regR := if verdict then 1 else 0, prime := verdict, rng := S, busy := false, done := true, search := none } := by
  rw [exec_busy .isprime s hb (launchCheck_isprime Config.W s hI hr), engineWork, h]
  rfl

theorem isPrime_of_le_one_or_four {n : Nat} (hn : n ≤ 1 ∨ n = 4) (iters : Nat) (S : RngState) : isPrime n iters S = (false, S) :=
  if_pos hn

theorem isPrime_of_two_or_three {n : Nat} (hn : n = 2 ∨ n = 3) (iters : Nat) (S : RngState) : isPrime n iters S = (true, S) := by
  rcases hn with rfl | rfl <;> rfl

/-- From 5 on the verdict is that of the rounds (44_isprime.md R181, R183). -/
theorem isPrime_of_five_le {n : Nat} (hn : 5 ≤ n) (iters : Nat) (S : RngState) :
    isPrime n iters S = primeRounds n (decompose n).1 (decompose n).2 (iters - 1) S := by
  rw [isPrime, if_neg (by omega), if_neg (by omega)]

/-- Settles O15: the engine's step on ISPRIME writes what `isPrime` answers. -/
theorem isprimeCompletesWithTheVerdict : Obligations.IsprimeCompletesWithTheVerdict := fun s hb hI hr =>
  ⟨_, _, rfl, exec_isprime s hb hI hr rfl⟩

/-- Settles O16: the two fast branches of `isPrime` leave the generator alone, and 5 and up is in neither. -/
theorem isprimeFastPaths : Obligations.IsprimeFastPaths := fun s hb hI hr =>
  ⟨fun hn => exec_isprime s hb hI hr (isPrime_of_le_one_or_four hn _ _),
    fun hn => exec_isprime s hb hI hr (isPrime_of_two_or_three hn _ _),
    fun hn => isPrime_of_five_le hn _ _⟩

/-- Settles O17: ITERS = 1 leaves no round to run. -/
theorem isprimeWithOneIterationAcceptsUntested : Obligations.IsprimeWithOneIterationAcceptsUntested := by
  intro s hb hI hr hN
  have hverdict : isPrime s.regN s.iters.toNat s.rng = (true, s.rng) := by
    rw [isPrime_of_five_le hN, hI]
    rfl
  exact exec_isprime s hb (by omega) hr hverdict

/-! ### The decomposition -/

/-- With enough fuel the halvings of a positive number keep `2^s * r` and end at an odd `r` (44_isprime.md R182). -/
theorem decomposeLoop_spec (fuel s r : Nat) (hr : 0 < r) (hfuel : r ≤ fuel) :
    2 ^ (decomposeLoop fuel s r).1 * (decomposeLoop fuel s r).2 = 2 ^ s * r ∧ (decomposeLoop fuel s r).2 % 2 = 1 := by
  induction fuel generalizing s r with
  | zero => omega
  | succ fuel ih =>
    rw [decomposeLoop]
    split
    case isTrue heven =>
      obtain ⟨hvalue, hodd⟩ := ih (s + 1) (r / 2) (by omega) (by omega)
      refine ⟨?_, hodd⟩
      calc 2 ^ (decomposeLoop fuel (s + 1) (r / 2)).1 * (decomposeLoop fuel (s + 1) (r / 2)).2
        _ = 2 ^ (s + 1) * (r / 2) := hvalue
        _ = 2 ^ s * (2 * (r / 2)) := by rw [pow_succ, mul_assoc]
        _ = 2 ^ s * r := by rw [Nat.mul_div_cancel' (Nat.dvd_of_mod_eq_zero heven)]
    case isFalse hodd => exact ⟨rfl, Nat.mod_two_ne_zero.mp hodd⟩

/-- The fuel of `decompose` is enough (44_isprime.md R182). -/
theorem decompose_spec {n : Nat} (hn : 2 ≤ n) : 2 ^ (decompose n).1 * (decompose n).2 = n - 1 ∧ (decompose n).2 % 2 = 1 := by
  have h := decomposeLoop_spec (n - 1) 0 (n - 1) (by omega) le_rfl
  rwa [pow_zero, one_mul] at h

theorem two_pow_dvd_of_eq_two_pow_mul_odd {s s' r r' : Nat} (h : 2 ^ s * r = 2 ^ s' * r') (hr' : r' % 2 = 1) :
    2 ^ s ∣ 2 ^ s' :=
  have hcoprime : Nat.Coprime (2 ^ s) r' := (Nat.coprime_two_left.mpr (Nat.odd_iff.mpr hr')).pow_left s
  hcoprime.dvd_of_dvd_mul_right (Dvd.intro r h)

/-- A number is a power of two times an odd number in one way only: each of two such powers divides the other. -/
theorem two_pow_mul_odd_unique {s s' r r' : Nat} (h : 2 ^ s * r = 2 ^ s' * r') (hr : r % 2 = 1) (hr' : r' % 2 = 1) :
    s = s' ∧ r = r' := by
  have hpow : 2 ^ s = 2 ^ s' :=
    Nat.dvd_antisymm (two_pow_dvd_of_eq_two_pow_mul_odd h hr') (two_pow_dvd_of_eq_two_pow_mul_odd h.symm hr)
  rw [hpow] at h
  exact ⟨Nat.pow_right_injective le_rfl hpow, Nat.eq_of_mul_eq_mul_left (Nat.two_pow_pos s') h⟩

/-- An odd N has an even predecessor, so at least one halving (44_isprime.md R182). -/
theorem decompose_fst_pos {n : Nat} (hn : 2 ≤ n) (hodd : n % 2 = 1) : 1 ≤ (decompose n).1 := by
  obtain ⟨hvalue, hr⟩ := decompose_spec hn
  by_contra hs
  have hs : (decompose n).1 = 0 := by omega
  rw [hs, pow_zero, one_mul] at hvalue
  omega

/-- Settles O18: the halvings end at the odd part, of which there is one; for an even N that is N - 1 itself. -/
theorem decompositionIsTheUniqueOddPart : Obligations.DecompositionIsTheUniqueOddPart := by
  intro n s r hn hd
  obtain ⟨hvalue, hr⟩ := decompose_spec (n := n) (by omega)
  have hs := decompose_fst_pos (n := n) (by omega)
  rw [hd] at hvalue hr hs
  refine ⟨hvalue.symm, hr, fun s' r' hn' hr' => two_pow_mul_odd_unique (hn'.symm.trans hvalue.symm) hr' hr, hs, fun heven => ?_⟩
  have hself : 2 ^ 0 * (n - 1) = n - 1 := by rw [pow_zero, one_mul]
  exact two_pow_mul_odd_unique (hvalue.trans hself.symm) hr (by omega)

/-! ### One round -/

/-- The squarings reach `n - 1` exactly when one of the first `k + 1` powers `y ^ 2 ^ j` is `n - 1` modulo `n`: the loop stops there,
and otherwise goes on from the square (44_isprime.md R185). -/
theorem squareUntil_eq_iff (n k y : Nat) (hy : y % n = y) :
    squareUntil n k y = n - 1 ↔ ∃ j, j ≤ k ∧ y ^ 2 ^ j % n = n - 1 := by
  induction k generalizing y with
  | zero => simp [squareUntil, hy]
  | succ k ih =>
    have hsquare (j : Nat) : (y * y % n) ^ 2 ^ j % n = y ^ 2 ^ (j + 1) % n := by
      rw [← Nat.pow_mod, ← sq, ← pow_mul, ← pow_succ']
    rw [squareUntil]
    split
    case isTrue hstop => exact iff_of_true hstop ⟨0, Nat.zero_le _, by rw [pow_zero, pow_one, hy, hstop]⟩
    case isFalse hgo =>
      rw [ih _ (Nat.mod_mod _ _)]
      constructor
      · rintro ⟨j, hj, h⟩
        exact ⟨j + 1, Nat.succ_le_succ hj, (hsquare j).symm.trans h⟩
      · rintro ⟨_ | j, hj, h⟩
        · rw [pow_zero, pow_one, hy] at h
          exact absurd h hgo
        · exact ⟨j, Nat.le_of_succ_le_succ hj, (hsquare j).trans h⟩

/-- A round passes exactly when the power is 1, or it or one of its squares is `n - 1` (44_isprime.md R185, R187). -/
theorem roundPasses_iff (n s r a : Nat) :
    roundPasses n s r a = true ↔ a ^ r % n = 1 ∨ ∃ j, j ≤ s - 1 ∧ a ^ (2 ^ j * r) % n = n - 1 := by
  have hpower (j : Nat) : (a ^ r % n) ^ 2 ^ j % n = a ^ (2 ^ j * r) % n := by
    rw [← Nat.pow_mod, ← pow_mul, mul_comm]
  have hsquares := squareUntil_eq_iff n (s - 1) (a ^ r % n) (Nat.mod_mod _ _)
  simp only [hpower] at hsquares
  rw [roundPasses, powMod_eq]
  split
  case isTrue hstop =>
    refine iff_of_true rfl (hstop.imp_right fun h => ⟨0, Nat.zero_le _, ?_⟩)
    rw [pow_zero, one_mul, h]
  case isFalse hgo => rw [beq_iff_eq, hsquares, or_iff_right fun h => hgo (.inl h)]

/-- Settles O19: the equivalence of `roundPasses_iff`, which needs no lower bound on n. -/
theorem roundIsTheStrongPseudoprimeTest : Obligations.RoundIsTheStrongPseudoprimeTest := fun n s r a _ =>
  roundPasses_iff n s r a

/-! ### A prime passes every round -/

/-- Where 1 has the square roots 1 and -1 only, a number whose square, taken `s` times, is 1 either is 1 or meets -1 on the way. -/
theorem eq_one_or_exists_pow_eq_neg_one {R : Type*} [CommRing R] [NoZeroDivisors R] (s : Nat) (x : R) (h : x ^ 2 ^ s = 1) :
    x = 1 ∨ ∃ j, j < s ∧ x ^ 2 ^ j = -1 := by
  induction s with
  | zero => exact .inl (by rwa [pow_zero, pow_one] at h)
  | succ s ih =>
    rw [pow_succ, pow_mul, sq_eq_one_iff] at h
    rcases h with h | h
    · exact (ih h).imp_right fun ⟨j, hj, e⟩ => ⟨j, Nat.lt_succ_of_lt hj, e⟩
    · exact .inr ⟨s, Nat.lt_succ_self s, h⟩

/-- Fermat's little theorem for the base of a round, then the square roots of 1 in the field of residues (44_isprime.md R189). -/
theorem roundPasses_of_prime {p a : Nat} (hp : p.Prime) (hodd : p % 2 = 1) (ha : 0 < a) (hap : a < p) :
    roundPasses p (decompose p).1 (decompose p).2 a = true := by
  have : Fact p.Prime := ⟨hp⟩
  obtain ⟨hvalue, -⟩ := decompose_spec hp.two_le
  have hs := decompose_fst_pos hp.two_le hodd
  have hne : (a : ZMod p) ≠ 0 := fun h => Nat.not_dvd_of_pos_of_lt ha hap ((ZMod.natCast_eq_zero_iff a p).mp h)
  have hfermat : ((a : ZMod p) ^ (decompose p).2) ^ 2 ^ (decompose p).1 = 1 := by
    rw [← pow_mul, mul_comm, hvalue, ZMod.pow_card_sub_one_eq_one hne]
  have hone (k : Nat) (h : (a : ZMod p) ^ k = 1) : a ^ k % p = 1 := by
    rw [← Nat.mod_eq_of_lt hp.one_lt]
    exact (ZMod.natCast_eq_natCast_iff' _ _ _).mp (by push_cast; exact h)
  have hneg (k : Nat) (h : (a : ZMod p) ^ k = -1) : a ^ k % p = p - 1 := by
    rw [← Nat.mod_eq_of_lt (Nat.sub_lt hp.pos one_pos)]
    exact (ZMod.natCast_eq_natCast_iff' _ _ _).mp (by push_cast [hp.one_le]; simpa using h)
  rw [roundPasses_iff]
  rcases eq_one_or_exists_pow_eq_neg_one _ _ hfermat with h | ⟨j, hj, h⟩
  · exact .inl (hone _ h)
  · rw [← pow_mul, mul_comm] at h
    exact .inr ⟨j, Nat.le_sub_one_of_lt hj, hneg _ h⟩

/-! ### The rounds and their draws -/

theorem primeRounds_of_passes {n s r : Nat} (k : Nat) {S : RngState} (h : roundPasses n s r (2 + (rngNext S (n - 3)).1) = true) :
    primeRounds n s r (k + 1) S = primeRounds n s r k (rngNext S (n - 3)).2 := if_pos h

theorem primeRounds_of_fails {n s r : Nat} (k : Nat) {S : RngState} (h : roundPasses n s r (2 + (rngNext S (n - 3)).1) = false) :
    primeRounds n s r (k + 1) S = (false, (rngNext S (n - 3)).2) := if_neg (Bool.eq_false_iff.mp h)

/-- The rounds accept when every base in [2, n - 2] passes, whatever is drawn (44_isprime.md R184). -/
theorem primeRounds_of_forall_passes {n s r : Nat} (hn : 3 < n) (h : ∀ v, v < n - 3 → roundPasses n s r (2 + v) = true)
    (k : Nat) (S : RngState) : (primeRounds n s r k S).1 = true := by
  induction k generalizing S with
  | zero => rfl
  | succ k ih =>
    rw [primeRounds_of_passes k (h _ (rngNext_lt S _ (by omega)))]
    exact ih _

/-- A prime is accepted from every generator state (44_isprime.md R189). -/
theorem isPrime_of_prime {p : Nat} (hp : p.Prime) (iters : Nat) (S : RngState) : (isPrime p iters S).1 = true := by
  by_cases hsmall : p = 2 ∨ p = 3
  · rw [isPrime_of_two_or_three hsmall]
  · have htwo := hp.two_le
    have hodd : p % 2 = 1 := hp.eq_two_or_odd.resolve_left fun h => hsmall (.inl h)
    rw [isPrime_of_five_le (by omega)]
    exact primeRounds_of_forall_passes (by omega) (fun v hv => roundPasses_of_prime hp hodd (by omega) (by omega)) _ _

/-- Settles O20: every base drawn is one that a prime passes. -/
theorem isprimeNeverRejectsAPrime : Obligations.IsprimeNeverRejectsAPrime := fun s hb hI hr hp =>
  ⟨_, exec_isprime s hb hI hr (Prod.ext (isPrime_of_prime hp _ _) rfl)⟩

/-- Of at most `k` rounds on `draws`, `m` were run and `verdict` came of them: each passed but the last one of a false verdict
(44_isprime.md R190). -/
structure RoundsRun (n s r k : Nat) (draws : List Nat) (verdict : Bool) (m : Nat) : Prop where
  le : m ≤ k
  all_of_true : verdict = true → m = k
  pos_of_false : verdict = false → 1 ≤ m
  passes_iff : ∀ j, j < m → (roundPasses n s r (2 + draws.getD j 0 % (n - 3)) = true ↔ verdict = true ∨ j + 1 < m)

namespace RoundsRun

variable {n s r k d m : Nat} {draws : List Nat} {verdict : Bool}

theorem nil : RoundsRun n s r 0 draws true 0 := ⟨le_rfl, fun _ => rfl, nofun, nofun⟩

/-- A first round that passes stands before the rounds on the other draws. -/
theorem cons (hd : roundPasses n s r (2 + d % (n - 3)) = true) (h : RoundsRun n s r k draws verdict m) :
    RoundsRun n s r (k + 1) (d :: draws) verdict (m + 1) where
  le := Nat.succ_le_succ h.le
  all_of_true hv := congrArg Nat.succ (h.all_of_true hv)
  pos_of_false _ := Nat.succ_pos m
  passes_iff
    | 0, _ => iff_of_true hd <| by
      cases verdict with
      | true => exact .inl rfl
      | false => exact .inr (Nat.succ_le_succ (h.pos_of_false rfl))
    | j + 1, hj => (h.passes_iff j (Nat.lt_of_succ_lt_succ hj)).trans (or_congr_right Nat.succ_lt_succ_iff.symm)

/-- A first round that fails is the only one run. -/
theorem failed (hd : roundPasses n s r (2 + d % (n - 3)) = false) : RoundsRun n s r (k + 1) (d :: draws) false 1 where
  le := Nat.succ_le_succ k.zero_le
  all_of_true := nofun
  pos_of_false _ := le_rfl
  passes_iff
    | 0, _ => by simp [hd]
    | j + 1, hj => by omega

end RoundsRun

/-- The rounds use up the queued draws one by one (44_isprime.md R184, R190). -/
theorem primeRounds_queued (n s r k code : Nat) (draws : List Nat) (hk : k ≤ draws.length) :
    ∃ m, (primeRounds n s r k ⟨draws, code⟩).2 = ⟨draws.drop m, code⟩ ∧
      RoundsRun n s r k draws (primeRounds n s r k ⟨draws, code⟩).1 m := by
  induction k generalizing draws with
  | zero => exact ⟨0, rfl, RoundsRun.nil⟩
  | succ k ih =>
    obtain ⟨d, draws, rfl⟩ := List.exists_cons_of_length_pos (Nat.zero_lt_of_lt hk)
    cases hd : roundPasses n s r (2 + d % (n - 3)) with
    | true =>
      obtain ⟨m, hdrop, hrun⟩ := ih draws (Nat.le_of_succ_le_succ hk)
      rw [primeRounds_of_passes (S := ⟨d :: draws, code⟩) k hd]
      exact ⟨m + 1, hdrop, hrun.cons hd⟩
    | false =>
      rw [primeRounds_of_fails (S := ⟨d :: draws, code⟩) k hd]
      exact ⟨1, rfl, RoundsRun.failed hd⟩

/-- Settles O21: from 5 on the verdict and the generator state are those of the rounds. -/
theorem isprimeTakesOneDrawPerRound : Obligations.IsprimeTakesOneDrawPerRound := by
  intro s hb hI hr hN hqueue
  obtain ⟨m, hdrop, hrun⟩ := primeRounds_queued s.regN (decompose s.regN).1 (decompose s.regN).2 (s.iters.toNat - 1)
    s.rng.code s.rng.queued hqueue
  exact ⟨m, _, exec_isprime s hb hI hr (isPrime_of_five_le hN _ _), hrun.le, hdrop, hrun.all_of_true, hrun.pos_of_false,
    hrun.passes_iff⟩

end Sys2Proof.Machine

/-! ## Random prime generation (family 45_mkprime)

A turn of the engine on MKPRIME is one `tryCandidate`: a candidate found completes the command, any other moves the hidden working
state on. So a search completes where its first candidate is found, and never with BITS below 2, where no candidate is. -/

namespace Sys2Proof.Machine

/-! ### One candidate -/

/-- With ITERS not 0, BITS at most the width and the generator ready no code of the launch check holds for MKPRIME (30_encoding.md
R95). -/
theorem launchCheck_mkprime (W : Nat) (s : State) (hI : s.iters.toNat ≠ 0) (hB : s.bits.toNat ≤ W) (hr : s.rngrdy = true) :
    launchCheck W .mkprime s = .none := by
  simp [launchCheck, hI, Nat.not_lt.mpr hB, hr]

/-- Settles O22: the candidate is found, and the engine's step is the completion with it. -/
theorem mkprimeCompletesWithAQualifyingCandidate : Obligations.MkprimeCompletesWithAQualifyingCandidate := by
  intro s c S₁ S₂ hb hI hB hr hdraw hlen hprime
  rw [exec_busy .mkprime s hb (launchCheck_mkprime Config.W s hI hB hr),
    engineWork_mkprime_found s c S₂ (tryCandidate_passed _ _ c _ S₁ S₂ hdraw hlen hprime)]
  rfl

/-- Settles O23: neither kind of candidate is found, and the engine's step goes on from the draws it cost. -/
theorem mkprimeKeepsSearchingOtherwise : Obligations.MkprimeKeepsSearchingOtherwise := by
  intro s c S₁ hb hI hB hr hdraw
  rw [exec_busy .mkprime s hb (launchCheck_mkprime Config.W s hI hB hr)]
  refine ⟨fun hlen => ?_, fun S₂ hlen hprime => ?_⟩
  · rw [engineWork_mkprime_searching s S₁ (tryCandidate_short _ _ c _ S₁ hdraw hlen)]
  · rw [engineWork_mkprime_searching s S₂ (tryCandidate_failed _ _ c _ S₁ S₂ hdraw hlen hprime)]

/-! ### The number found -/

/-- A number with binary digits at all has its leading one at the highest (00_scope.md R10). -/
theorem two_pow_le_of_bitLength {c b : Nat} (hc : c ≠ 0) (hlen : bitLength c = b) : 2 ^ (b - 1) ≤ c := by
  rw [← hlen, bitLength, if_neg hc, Nat.add_sub_cancel]
  exact Nat.log2_self_le hc

/-- The test accepts neither 0 nor 1 (44_isprime.md R181). -/
theorem two_le_of_isPrime {n iters : Nat} {S S' : RngState} (h : isPrime n iters S = (true, S')) : 2 ≤ n := by
  by_contra hn
  rw [isPrime_of_le_one_or_four (by omega)] at h
  cases h

/-- No candidate of 0 or 1 bits is found, since those below 2 fail the test (45_mkprime.md R205). -/
theorem two_le_bits_of_tryCandidate {bits iters c : Nat} {S S' : RngState} (h : tryCandidate bits iters S = (some c, S')) :
    2 ≤ bits := by
  obtain ⟨-, -, hprime⟩ := tryCandidate_some bits iters c S S' h
  have hpow : 2 ^ 1 < 2 ^ bits := (two_le_of_isPrime hprime).trans_lt (tryCandidate_lt bits iters c S S' h)
  exact (Nat.pow_lt_pow_iff_right (by decide)).mp hpow

/-- Settles O25: a step that ends with BUSY = 0 found its candidate, and `tryCandidate_some` says what that is. -/
theorem mkprimeResultHasExactlyBitsDigits : Obligations.MkprimeResultHasExactlyBitsDigits := by
  intro s t hb hexec hdone
  rcases exec_next .mkprime s t hexec with ⟨hidle, -⟩ | ⟨-, -, rfl⟩
  · exact absurd hb (Bool.eq_false_iff.mp hidle)
  rcases htry : tryCandidate s.bits.toNat s.iters.toNat (s.search.getD s.rng) with ⟨_ | c, S⟩
  · rw [engineWork_mkprime_searching s S htry] at hdone
    exact absurd hb (Bool.eq_false_iff.mp hdone)
  · rw [engineWork_mkprime_found s c S htry]
    obtain ⟨hdraw, hlen, hprime⟩ := tryCandidate_some _ _ c _ S htry
    have hc : c ≠ 0 := Nat.ne_zero_of_lt (two_le_of_isPrime hprime)
    exact ⟨two_le_bits_of_tryCandidate htry, two_pow_le_of_bitLength hc hlen, tryCandidate_lt _ _ c _ S htry, hdraw, hprime⟩

/-! ### A search left to the engine -/

/-- With no turns listed a busy engine is served at once (60_exceptions.md R241; log 6). -/
theorem step_of_no_turns {s : State} {i : Instr} (hb : s.busy = true) (hturns : s.turns = []) (hcur : decodeOpcode s.cur = .ok i)
    (hcheck : launchCheck Config.W i s = .none) : step s = .next (engineWork i s) := by
  have hagent : nextAgent s = .engine := by simp [nextAgent, hturns, hb]
  have hpop : popTurn s = s := by rw [popTurn, hturns, List.tail_nil, ← hturns]
  simp only [step, takeTurn, hagent, hpop, engineTurn, hb, if_true, hcur]
  exact exec_busy i s hb hcheck

/-- A search goes on over the candidates not found and completes with the first one found, by induction on their number
(45_mkprime.md R202, R206). -/
theorem run_mkprime (k : Nat) {c : Nat} {S : RngState} (g : Nat → RngState) (s : State) (hb : s.busy = true) (hturns : s.turns = [])
    (hcur : decodeOpcode s.cur = .ok .mkprime) (hcheck : launchCheck Config.W .mkprime s = .none)
    (hstart : s.search.getD s.rng = g 0)
    (hmissed : ∀ j, j < k → tryCandidate s.bits.toNat s.iters.toNat (g j) = (none, g (j + 1)))
    (hfound : tryCandidate s.bits.toNat s.iters.toNat (g k) = (some c, S)) :
    runSteps (k + 1) s = .next (complete { s with regR := c, rng := S }) := by
  induction k generalizing s g with
  | zero =>
    rw [← hstart] at hfound
    rw [run_one_next (step_of_no_turns hb hturns hcur hcheck), engineWork_mkprime_found s c S hfound]
  | succ k ih =>
    have hfirst := hmissed 0 (Nat.succ_pos k)
    rw [← hstart] at hfirst
    rw [run_succ_next (k + 1) s _ (step_of_no_turns hb hturns hcur hcheck), engineWork_mkprime_searching s _ hfirst]
    exact ih (fun j => g (j + 1)) { s with search := some (g 1) } hb hturns hcur hcheck rfl
      (fun j hj => hmissed (j + 1) (Nat.succ_lt_succ hj)) hfound

/-- Settles O24: the candidates before number `k` are not found, and number `k` is. -/
theorem mkprimeCompletesAtTheFirstQualifyingCandidate : Obligations.MkprimeCompletesAtTheFirstQualifyingCandidate := by
  intro s k c g h hb hcur hI hB hr hsearch hturns hstart hdraw hmissed hlen hprime
  refine run_mkprime k g s hb hturns hcur (launchCheck_mkprime Config.W s hI hB hr) ?_ (fun j hj => ?_)
    (tryCandidate_passed _ _ (c k) _ (h k) _ (hdraw k le_rfl) hlen hprime)
  · rw [hsearch, hstart]
    rfl
  · rcases hmissed j hj with ⟨hshort, hnext⟩ | ⟨hlen, hfailed⟩
    · rw [hnext]
      exact tryCandidate_short _ _ (c j) _ (h j) (hdraw j hj.le) hshort
    · exact tryCandidate_failed _ _ (c j) _ (h j) _ (hdraw j hj.le) hlen hfailed

/-! ### A search without end -/

/-- What every step keeps is kept by a run. -/
theorem run_keeps {P : State → Prop} (hstep : ∀ s t, P s → step s = .next t → P t) (k : Nat) {s t : State} (hs : P s)
    (hrun : runSteps k s = .next t) : P t := by
  induction k generalizing s with
  | zero =>
    rw [run_zero] at hrun
    injection hrun with hrun
    exact hrun ▸ hs
  | succ k ih =>
    obtain ⟨u, hsu, hut⟩ := run_succ_inv k s t hrun
    exact ih (hstep s u hs hsu) hut

/-- Reset moves next only where it is listed (log 6). -/
theorem nextAgent_ne_reset {s : State} (h : .reset ∉ s.turns) : nextAgent s ≠ .reset := by
  unfold nextAgent
  split
  case h_1 a rest hturns =>
    rintro rfl
    exact h (by rw [hturns]; exact List.mem_cons_self)
  case h_2 => split <;> nofun

/-- A MKPRIME of 0 or 1 bits in flight, with no reset to come (45_mkprime.md R205 a). -/
structure EndlessSearch (s : State) : Prop where
  busy : s.busy = true
  cur : decodeOpcode s.cur = .ok .mkprime
  bits_le : s.bits.toNat ≤ 1
  no_reset : .reset ∉ s.turns

namespace EndlessSearch

variable {s t : State}

/-- A used up turn brings no reset. -/
theorem no_reset_tail (h : EndlessSearch s) : .reset ∉ s.turns.tail := fun hmem => h.no_reset (List.mem_of_mem_tail hmem)

/-- The engine's step only moves the hidden working state on, since no candidate is found. -/
theorem exists_engineWork_eq (h : EndlessSearch s) : ∃ S, engineWork .mkprime s = { s with search := some S } := by
  rcases htry : tryCandidate s.bits.toNat s.iters.toNat (s.search.getD s.rng) with ⟨_ | c, S⟩
  · exact ⟨S, engineWork_mkprime_searching s S htry⟩
  · exact absurd (two_le_bits_of_tryCandidate htry) (Nat.not_le.mpr (Nat.lt_succ_of_le h.bits_le))

/-- While BUSY = 1 the host cannot write CUR or BITS, and the engine does not (20_memory.md R67). -/
theorem of_stepTo (h : EndlessSearch s) (hst : StepTo s t) : EndlessSearch t := by
  have hpop : EndlessSearch (popTurn s) := { h with no_reset := h.no_reset_tail }
  cases hst with
  | pass | statusWrite | dropped => exact { hpop with }
  | paramWrite _ _ _ _ _ _ hidle | limbWrite _ _ _ _ _ _ hidle | started _ _ _ _ _ hidle | errored _ _ _ _ _ hidle =>
    exact absurd h.busy (Bool.eq_false_iff.mp hidle)
  | worked i _ _ hcur =>
    obtain rfl : Instr.mkprime = i := Except.ok.inj (h.cur.symm.trans hcur)
    obtain ⟨S, hS⟩ := hpop.exists_engineWork_eq
    rw [hS]
    exact { hpop with }
  | reset hagent => exact absurd hagent (nextAgent_ne_reset h.no_reset)

end EndlessSearch

/-- Settles O26: every step keeps an endless search, so every run does. -/
theorem mkprimeBelowTwoBitsNeverCompletes : Obligations.MkprimeBelowTwoBitsNeverCompletes := by
  intro k s t hb hcur hbits hreset hrun
  have hkeep : ∀ u v, EndlessSearch u → step u = .next v → EndlessSearch v := fun u v h hs => h.of_stepTo (stepTo_of_step u v hs)
  exact (run_keeps hkeep k ⟨hb, hcur, hbits, hreset⟩ hrun).busy

end Sys2Proof.Machine

/-! ## Random State and the commands (family 46_rng_system)

RNGINIT and RNGCLEAR each meet their launch condition by one value of RNGRDY, and their step is the completion with Random State set
up or torn down. The five numeric commands take no part in it: their launch check reads N at most, and their step computes R from
the operands alone. -/

namespace Sys2Proof.Machine

/-! ### The lifecycle of Random State -/

/-- RNGSTATE is the only code that RNGINIT can meet, and only with the generator ready (30_encoding.md R95). -/
theorem launchCheck_rnginit (W : Nat) (s : State) (hr : s.rngrdy = false) : launchCheck W .rnginit s = .none := by
  simp [launchCheck, hr]

/-- RNGSTATE is the only code that RNGCLEAR can meet, and only with the generator not ready (30_encoding.md R95). -/
theorem launchCheck_rngclear (W : Nat) (s : State) (hr : s.rngrdy = true) : launchCheck W .rngclear s = .none := by
  simp [launchCheck, hr]

/-- Settles O27: the launch check still holds, and the engine's step is the set-up from SEED and the completion. -/
theorem rnginitCompletesWithRandomStateReady : Obligations.RnginitCompletesWithRandomStateReady := fun s hb hr =>
  exec_busy .rnginit s hb (launchCheck_rnginit Config.W s hr)

/-- Settles O28: the launch check still holds, and the engine's step clears RNGRDY and completes. -/
theorem rngclearCompletesWithRandomStateTornDown : Obligations.RngclearCompletesWithRandomStateTornDown := fun s hb hr =>
  exec_busy .rngclear s hb (launchCheck_rngclear Config.W s hr)

/-! ### The commands that need no Random State -/

/-- `s` with another generator state and another RNGRDY. -/
def State.withRandomState (g : RngState) (ready : Bool) (s : State) : State := { s with rng := g, rngrdy := ready }

section NumericCommand

variable (g : RngState) (ready : Bool)

/-- Given the code of its check, a launch neither reads nor writes Random State, whichever the command (30_encoding.md R94). -/
theorem launch_withRandomState (i : Instr) (c : ErrCode) (s : State) :
    launch i c (s.withRandomState g ready) = (launch i c s).withRandomState g ready := by
  rcases launch_cases i c s with ⟨rfl, h⟩ | ⟨hc, h⟩
  · rw [h, launch_passed]
    rfl
  · rw [h, launch_failed i c _ hc]
    rfl

variable {i : Instr} (hi : i = .gcd ∨ i = .modinv ∨ i = .powmod ∨ i = .modred ∨ i = .mulmod)
include hi

/-- GCD has no launch condition, the other four only one on N (30_encoding.md R95). -/
theorem launchCheck_withRandomState (W : Nat) (s : State) : launchCheck W i (s.withRandomState g ready) = launchCheck W i s := by
  rcases hi with rfl | rfl | rfl | rfl | rfl <;> rfl

/-- The engine's step on a numeric command reads the operands only and writes R, NOINV and the completion (46_rng_system.md R210). -/
theorem engineWork_withRandomState (s : State) :
    engineWork i (s.withRandomState g ready) = (engineWork i s).withRandomState g ready := by
  rcases hi with rfl | rfl | rfl | rfl | rfl <;> rfl

end NumericCommand

/-- Settles O52: the launch, its check and the engine's step of a numeric command commute with any change of Random State. -/
theorem numericCommandsIgnoreRandomState : Obligations.NumericCommandsIgnoreRandomState := by
  intro i s t g ready hi hst
  have hcheck := launchCheck_withRandomState g ready hi Config.W s
  show exec i (s.withRandomState g ready) = .next (t.withRandomState g ready)
  rcases exec_next i s t hst with ⟨hidle, rfl⟩ | ⟨hbusy, hc, rfl⟩
  · rw [exec_idle i (s.withRandomState g ready) hidle, hcheck, launch_withRandomState]
  · rw [exec_busy i (s.withRandomState g ready) hbusy (hcheck.trans hc), engineWork_withRandomState g ready hi]

end Sys2Proof.Machine

/-! ## The RSA macros (family 47_rsa_macros)

Each of them is a host sequence: a list of operand writes, one command, its `WAIT` and the read of R. One lemma, `run_commandSequence`,
runs them all from an idle state: it ends in the state after the command, read back by the host. What the host then holds is the
command's value, by the families of the commands. The round trip of R225 is Fermat's little theorem at both primes. -/

namespace Sys2Proof.Machine

/-! ### `CMD m; WAIT` -/

/-- `s` after the launch of a command that passes its check and one step of the engine on it. -/
def State.afterCommand (i : Instr) (s : State) : State := engineWork i (startCommand i (clearForLaunch s))

/-- One step of the engine completes every command but MKPRIME, and it leaves the environment alone (60_exceptions.md R242). -/
theorem afterCommand_completed (i : Instr) (s : State) (hi : i ≠ .mkprime) :
    (s.afterCommand i).busy = false ∧ (s.afterCommand i).turns = s.turns ∧ (s.afterCommand i).script = s.script := by
  rcases engineWork_cases i (startCommand i (clearForLaunch s)) with ⟨h, -⟩ | ⟨x, f, q, g, y, h, -⟩
  · exact absurd h hi
  · rw [State.afterCommand, h]
    exact ⟨rfl, rfl, rfl⟩

section IdleHost

variable {s : State} {rest : List HostOp}

/-- `CMD m` in IDLE and the engine's step at once after it (30_encoding.md R94, R97; log 6). -/
theorem run_hostCmd (i : Instr) (hb : s.busy = false) (hturns : s.turns = []) (hcheck : launchCheck Config.W i s = .none)
    (hscript : s.script = hostCmd i ++ rest) : runSteps 2 s = .next ({ s with script := rest }.afterCommand i) := by
  have hcheck' : launchCheck Config.W i { s with script := rest } = .none := hcheck
  have hlaunch : step s = .next (startCommand i (clearForLaunch { s with script := rest })) := by
    rw [step_write_cmd (rest := rest) (nextAgent_idle hb hturns) hscript hb, afterItem_of_no_turns hturns,
      writeCmd_legal _ _ i (decode_encode i), exec_idle i { s with script := rest } hb, hcheck', launch_passed]
  rw [run_succ_next 1 s _ hlaunch]
  exact run_one_next (step_of_no_turns rfl hturns (decodeOpcode_opcode i) hcheck)

/-- `WAIT` in IDLE reads STATUS once (30_encoding.md R97). -/
theorem step_wait (hb : s.busy = false) (hturns : s.turns = []) (hscript : s.script = .wait :: rest) :
    step s = .next (recordRead (statusWord s) { s with script := rest }) := by
  have hpop : popTurn s = s := by rw [popTurn, hturns, List.tail_nil, ← hturns]
  have hstatus : memRead Config.L 0x0004 s = statusWord s := rfl
  have hbit : (statusWord s).getLsbD 0 = false := (statusWord_fields s).1.trans hb
  rw [step_of_host (nextAgent_idle hb hturns), hpop, hostTurn, hscript]
  simp only [hstatus, hbit, Bool.false_eq_true, if_false]

end IdleHost

/-! ### `WAIT; RD R` -/

/-- `c` once the host has read STATUS and the limbs of R, with `rest` of its items to come. -/
def State.readBack (c : State) (rest : List HostOp) : State :=
  { c with script := rest, reads := limbsRead c.regR Config.L ++ statusWord c :: c.reads }

theorem run_readBack {c : State} {rest : List HostOp} (hb : c.busy = false) (hturns : c.turns = [])
    (hscript : c.script = hostWait ++ (hostRd Config.L .r ++ rest)) : runSteps (Config.L + 1) c = .next (c.readBack rest) := by
  rw [run_succ_next Config.L c _ (step_wait hb hturns hscript)]
  exact run_hostRd .r _ rest hb hturns rfl

theorem lastRd_readBack {c : State} (hR : c.regR < 2 ^ Config.W) (rest : List HostOp) :
    lastRd Config.L (c.readBack rest) = c.regR := by
  rw [lastRd, State.readBack, List.take_left' (length_limbsRead _ _), limbsValue_limbsRead, ← W_eq, Nat.mod_eq_of_lt hR]

/-- The word read before the limbs of R is STATUS, so the host of `PRIVKEY` sees ERR and NOINV (47_rsa_macros.md R224). -/
theorem rsaPrivkeyResult_readBack {c : State} (hR : c.regR < 2 ^ Config.W) (rest : List HostOp) :
    rsaPrivkeyResult Config.L (c.readBack rest) = if c.err || c.noinv then none else some c.regR := by
  obtain ⟨-, -, herr, hnoinv, -⟩ := statusWord_fields c
  have hstatus : (c.readBack rest).reads[Config.L]? = some (statusWord c) := by
    rw [State.readBack, List.getElem?_append_right (length_limbsRead _ _).le, length_limbsRead, Nat.sub_self,
      List.getElem?_cons_zero]
  simp only [rsaPrivkeyResult, hstatus, herr, hnoinv, lastRd_readBack hR]

/-! ### The operand writes -/

/-- `WR X, v` for each bank and number of a list, in order. -/
def hostWrs (ws : List (Bank × Nat)) : List HostOp := ws.flatMap fun w => hostWr Config.L w.1 w.2

/-- `s` with each number of a list in the register of its bank. -/
def State.withOperands (ws : List (Bank × Nat)) (s : State) : State := ws.foldl (fun s w => writeBank w.1 w.2 s) s

/-- A run keeps the invariants, since every step does. -/
theorem State.Inv.of_run {k : Nat} {s t : State} (h : s.Inv) (hrun : runSteps k s = .next t) : t.Inv :=
  run_keeps (fun s t => stepKeepsTheInvariants s t) k h hrun

theorem State.Inv.readBank_lt {s : State} (h : s.Inv) (k : Bank) : readBank k s < 2 ^ Config.W := by
  cases k with
  | a => exact h.regA_lt
  | b => exact h.regB_lt
  | n => exact h.regN_lt
  | r => exact h.regR_lt

theorem withOperands_withScript (ws : List (Bank × Nat)) (s : State) (sc : List HostOp) :
    { s with script := sc }.withOperands ws = { s.withOperands ws with script := sc } := by
  induction ws generalizing s with
  | nil => rfl
  | cons w ws ih =>
    have hw : writeBank w.1 w.2 { s with script := sc } = { writeBank w.1 w.2 s with script := sc } := by
      cases w.1 <;> rfl
    rw [State.withOperands, List.foldl_cons, hw]
    exact ih _

theorem withOperands_busy (ws : List (Bank × Nat)) (s : State) : (s.withOperands ws).busy = s.busy := by
  induction ws generalizing s with
  | nil => rfl
  | cons w ws ih => exact (ih _).trans (writeBank_busy w.1 w.2 s)

theorem withOperands_turns (ws : List (Bank × Nat)) (s : State) : (s.withOperands ws).turns = s.turns := by
  induction ws generalizing s with
  | nil => rfl
  | cons w ws ih => exact (ih _).trans (writeBank_turns w.1 w.2 s)

/-- The operand writes of a host sequence in IDLE, by induction on the list (30_encoding.md R97). -/
theorem run_hostWrs (ws : List (Bank × Nat)) {s : State} (hinv : s.Inv) (hb : s.busy = false) (hturns : s.turns = [])
    (hws : ∀ w ∈ ws, w.2 < 2 ^ Config.W) (rest : List HostOp) (hscript : s.script = hostWrs ws ++ rest) :
    runSteps (Config.L * ws.length) s = .next { s.withOperands ws with script := rest } := by
  induction ws generalizing s with
  | nil =>
    obtain rfl : rest = s.script := hscript.symm
    rfl
  | cons w ws ih =>
    rw [List.forall_mem_cons] at hws
    obtain ⟨hw, hws⟩ := hws
    have hfirst := run_hostWr w.1 w.2 s (hostWrs ws ++ rest) hb hturns (hinv.readBank_lt w.1) hw
      (by rw [hscript, hostWrs, List.flatMap_cons, List.append_assoc]; rfl)
    rw [List.length_cons, Nat.mul_succ, Nat.add_comm, run_add _ _ s _ hfirst,
      ih (hinv.of_run hfirst) ((writeBank_busy _ _ s).trans hb) ((writeBank_turns _ _ s).trans hturns) hws rfl,
      withOperands_withScript]
    rfl

/-! ### The sequence as a whole -/

/-- The host sequence of the RSA functions over one command (30_encoding.md R98). -/
def commandSequence (ws : List (Bank × Nat)) (i : Instr) : List HostOp :=
  hostWrs ws ++ (hostCmd i ++ (hostWait ++ hostRd Config.L .r))

theorem rsaEncrypt_eq (m e n : Nat) : rsaEncrypt Config.L m e n = commandSequence [(.a, m), (.b, e), (.n, n)] .powmod := by
  simp [rsaEncrypt, commandSequence, hostWrs]

/-- `VERIFY` makes the accesses of an `ENCRYPT` of the signature (47_rsa_macros.md R220, R223). -/
theorem rsaVerify_eq (sig e n : Nat) : rsaVerify Config.L sig e n = rsaEncrypt Config.L sig e n := rfl

theorem rsaPrivkey_eq (e p q : Nat) : rsaPrivkey Config.L e p q = commandSequence [(.a, e), (.n, rsaTotient p q)] .modinv := by
  simp [rsaPrivkey, commandSequence, hostWrs]

theorem rsaCoprime_eq (x y : Nat) : rsaCoprime Config.L x y = commandSequence [(.a, x), (.b, y)] .gcd := by
  simp [rsaCoprime, commandSequence, hostWrs]

/-- The sequence from any idle state: the operands are written, the command passes its check and completes, and the host reads back.
The state the command starts in is known but for the host's items, which no command reads. -/
theorem run_commandSequence (ws : List (Bank × Nat)) (i : Instr) {s : State} {rest : List HostOp} (hinv : s.Inv) (hb : s.busy = false)
    (hturns : s.turns = []) (hws : ∀ w ∈ ws, w.2 < 2 ^ Config.W) (hi : i ≠ .mkprime)
    (hcheck : launchCheck Config.W i (s.withOperands ws) = .none) (hscript : s.script = commandSequence ws i ++ rest) :
    ∃ c sc, c = { s.withOperands ws with script := sc }.afterCommand i ∧ c.regR < 2 ^ Config.W ∧
      runSteps ((ws.length + 1) * Config.L + 3) s = .next (c.readBack rest) := by
  have hidle : (s.withOperands ws).busy = false := (withOperands_busy ws s).trans hb
  have hfree : (s.withOperands ws).turns = [] := (withOperands_turns ws s).trans hturns
  have hwrites := run_hostWrs ws hinv hb hturns hws (hostCmd i ++ (hostWait ++ (hostRd Config.L .r ++ rest)))
    (by rw [hscript, commandSequence]; simp only [List.append_assoc])
  have hcmd := run_hostCmd (s := { s.withOperands ws with script := hostCmd i ++ (hostWait ++ (hostRd Config.L .r ++ rest)) })
    i hidle hfree hcheck rfl
  obtain ⟨hbc, hturnsc, hscriptc⟩ := afterCommand_completed i
    { s.withOperands ws with script := hostWait ++ (hostRd Config.L .r ++ rest) } hi
  have hsteps : (ws.length + 1) * Config.L + 3 = Config.L * ws.length + (2 + (Config.L + 1)) := by ring
  refine ⟨_, _, rfl, ((hinv.of_run hwrites).of_run hcmd).regR_lt, ?_⟩
  rw [hsteps, run_add _ _ s _ hwrites, run_add _ _ _ _ hcmd]
  exact run_readBack hbc (hturnsc.trans hfree) hscriptc

/-- Settles O56: the sequence's command is POWMOD on A = m, B = e and N = n. -/
theorem encryptMacroReadsBackThePower : Obligations.EncryptMacroReadsBackThePower := by
  intro s m e n rest hinv hb hturns hm he hn hn0 hscript
  obtain ⟨c, sc, rfl, hR, hrun⟩ := run_commandSequence [(.a, m), (.b, e), (.n, n)] .powmod hinv hb hturns
    (by simp [hm, he, hn]) nofun (launchCheck_of_regN_ne_zero Config.W .powmod _ (by simp) hn0) (by rw [hscript, rsaEncrypt_eq])
  exact ⟨_, hrun, (lastRd_readBack hR rest).trans (powMod_eq m e n), rfl, rfl, rfl⟩

/-- Settles O57: VERIFY is ENCRYPT of the signature and the host's comparison. -/
theorem verifyMacroComparesThePowerWithTheMessage : Obligations.VerifyMacroComparesThePowerWithTheMessage := by
  intro s m sig e n rest hinv hb hturns hsig he hn hn0 hscript
  obtain ⟨t, hrun, hread, henv⟩ := encryptMacroReadsBackThePower s sig e n rest hinv hb hturns hsig he hn hn0
    (by rw [hscript, rsaVerify_eq])
  exact ⟨t, hrun, by rw [rsaVerifyVerdict, beq_iff_eq, hread], henv⟩

/-- Settles O58: the sequence's command is MODINV on A = e and N the totient, and the host takes R unless NOINV is set. -/
theorem privkeyMacroGivesThePrivateExponent : Obligations.PrivkeyMacroGivesThePrivateExponent := by
  intro s e p q rest hinv hb hturns _ _ he ht hscript ht0
  obtain ⟨c, sc, rfl, hR, hrun⟩ := run_commandSequence [(.a, e), (.n, rsaTotient p q)] .modinv hinv hb hturns
    (by simp [he, ht, rsaTotient]) nofun (launchCheck_of_regN_ne_zero Config.W .modinv _ (by simp) ht0)
    (by rw [hscript, rsaPrivkey_eq])
  have hresult : rsaPrivkeyResult Config.L _ =
      if (modInv e (rsaTotient p q)).2 then none else some (modInv e (rsaTotient p q)).1 := rsaPrivkeyResult_readBack hR rest
  refine ⟨_, hrun, rfl, rfl, rfl, ?none, fun d hd => ?inverse⟩
  case none =>
    rw [hresult, ← rsaTotient, ← modInv_noinv_iff]
    simp
  case inverse =>
    rw [hresult, Option.ite_none_left_eq_some] at hd
    obtain ⟨hf, ⟨⟩⟩ := hd
    have hco : Nat.Coprime e (rsaTotient p q) := coprime_of_modInv_inverse ht0 (by simpa using hf)
    exact ⟨modInv_fst_lt e _ (Nat.pos_of_ne_zero ht0), mul_modInv_modEq_one ht0 hco⟩

/-- Settles O59: the sequence's command is GCD on A = x and B = y. -/
theorem coprimeMacroDecidesCoprimality : Obligations.CoprimeMacroDecidesCoprimality := by
  intro s x y rest hinv hb hturns hx hy hscript
  obtain ⟨c, sc, rfl, hR, hrun⟩ := run_commandSequence [(.a, x), (.b, y)] .gcd hinv hb hturns (by simp [hx, hy]) nofun rfl
    (by rw [hscript, rsaCoprime_eq])
  have hread : lastRd Config.L _ = Nat.gcd x y := (lastRd_readBack hR rest).trans (gcdEuclid_eq_gcd x y)
  exact ⟨_, hrun, by rw [rsaCoprimeVerdict, beq_iff_eq, hread], rfl, rfl, rfl⟩

/-! ### The round trip -/

/-- Fermat's little theorem for every base: an exponent that is 1 modulo `p - 1` is the exponent 1. -/
theorem pow_modEq_self_of_prime {p k : Nat} (hp : p.Prime) (hk : k ≠ 0) (h : k ≡ 1 [MOD p - 1]) (m : Nat) :
    m ^ k ≡ m [MOD p] := by
  have hk1 : 1 ≤ k := Nat.one_le_iff_ne_zero.mpr hk
  have hdvd : p - 1 ∣ k - 1 := (Nat.modEq_iff_dvd' hk1).mp h.symm
  rw [← Int.natCast_modEq_iff, Nat.cast_pow]
  simpa using Int.ModEq.pow_eq_pow hp hdvd hk1 one_pos m

/-- The totient of two distinct primes is at least 2, since one of them is at least 3 (47_rsa_macros.md R224). -/
theorem one_lt_totient {p q : Nat} (hp : p.Prime) (hq : q.Prime) (hpq : p ≠ q) : 1 < (p - 1) * (q - 1) := by
  have hp2 := hp.two_le
  have hq2 := hq.two_le
  rcases Nat.lt_or_gt_of_ne hpq with h | h
  · exact Nat.one_lt_mul_iff.mpr ⟨by omega, by omega, .inr (by omega)⟩
  · exact Nat.one_lt_mul_iff.mpr ⟨by omega, by omega, .inl (by omega)⟩

/-- The number theory of R225: modulo two distinct primes an exponent that is 1 modulo the totient is the exponent 1, at each prime
by Fermat's little theorem and at their product by the Chinese remainder theorem. -/
theorem pow_modEq_self_of_distinct_primes {p q k : Nat} (hp : p.Prime) (hq : q.Prime) (hpq : p ≠ q)
    (hk : k ≡ 1 [MOD (p - 1) * (q - 1)]) (m : Nat) : m ^ k ≡ m [MOD p * q] := by
  have hk0 : k ≠ 0 := by
    rintro rfl
    rw [Nat.ModEq, Nat.zero_mod, Nat.mod_eq_of_lt (one_lt_totient hp hq hpq)] at hk
    exact zero_ne_one hk
  rw [← Nat.modEq_and_modEq_iff_modEq_mul ((Nat.coprime_primes hp hq).mpr hpq)]
  exact ⟨pow_modEq_self_of_prime hp hk0 (hk.of_mul_right _) m, pow_modEq_self_of_prime hq hk0 (hk.of_mul_left _) m⟩

/-- Settles O60: MODINV gives the inverse exponent, POWMOD twice is the power with the product of the two exponents, and the product
is 1 modulo the totient in either order. -/
theorem rsaRoundTripGivesTheMessageResidue : Obligations.RsaRoundTripGivesTheMessageResidue := by
  intro p q e m k hp hq hpq hco hbk hAk hNk
  have ht0 : (p - 1) * (q - 1) ≠ 0 := (Nat.zero_lt_of_lt (one_lt_totient hp hq hpq)).ne'
  refine ⟨_, exec_busy_of_regN_ne_zero .modinv k (by simp) hbk (hNk ▸ ht0), ?_, fun x y s hxy hbs hAs hBs hNs => ?_⟩
  · show (modInv k.regA k.regN).2 = false
    rw [hAk, hNk, ← Bool.not_eq_true, modInv_noinv_iff, hco]
    exact lt_irrefl 1
  have hn0 : p * q ≠ 0 := Nat.mul_ne_zero hp.ne_zero hq.ne_zero
  refine ⟨_, powmodCompletesWithThePower s hbs (hNs ▸ hn0), fun u hbu hAu hBu hNu => ?_⟩
  refine ⟨_, powmodCompletesWithThePower u hbu (hNu ▸ hn0), ?_⟩
  have hinverse : e * (modInv k.regA k.regN).1 ≡ 1 [MOD (p - 1) * (q - 1)] := by
    rw [hAk, hNk]
    exact mul_modInv_modEq_one ht0 hco
  have hxy1 : x * y ≡ 1 [MOD (p - 1) * (q - 1)] := by
    rcases hxy with ⟨hx, hy⟩ | ⟨hx, hy⟩ <;> rw [hx, hy]
    · exact hinverse
    · rw [mul_comm _ e]
      exact hinverse
  calc u.regA ^ u.regB % u.regN
    _ = (m ^ x % (p * q)) ^ y % (p * q) := by rw [hAu, hBu, hNu, ← hAs, ← hBs, ← hNs]
    _ = m ^ (x * y) % (p * q) := by rw [← Nat.pow_mod, ← pow_mul]
    _ = m % (p * q) := pow_modEq_self_of_distinct_primes hp hq hpq hxy1 m

end Sys2Proof.Machine

/-! ## Error completion, the interrupt line, and the turns of the engine and of reset (families 60_exceptions and 70_reset_and_hazards)

A write to CMD in IDLE has two forms; a command that answers a next state leaves DONE = not BUSY. -/

namespace Sys2Proof.Machine

/-! ### The engine's turn and the turn of reset -/

theorem step_of_engine {s : State} (hagent : nextAgent s = .engine) : step s = engineTurn (popTurn s) := by
  rw [step, takeTurn, hagent]

/-- With BUSY = 1 the engine's turn is `exec` of the command CUR names (60_exceptions.md R241). -/
theorem engineTurn_busy {s : State} {i : Instr} (hb : s.busy = true) (hcur : decodeOpcode s.cur = .ok i) :
    engineTurn s = exec i s := by
  rw [engineTurn, if_pos hb, hcur]

/-- Settles O4, by the law of the engine's turn. -/
theorem stepRunsTheCommandInFlight : Obligations.StepRunsTheCommandInFlight := by
  intro s i hagent hb hcur _
  rw [step_of_engine hagent]
  exact engineTurn_busy hb hcur

theorem step_of_reset {s : State} (hagent : nextAgent s = .reset) : step s = .next (resetTurn (popTurn s)) := by
  rw [step, takeTurn, hagent]

/-- Settles O2: the first turn listed is the one taken, and a reset turn keeps only the environment. -/
theorem resetTurnLeavesTheResetState : Obligations.ResetTurnLeavesTheResetState := by
  intro s rest hturns
  have hagent : nextAgent s = .reset := by rw [nextAgent, hturns]
  rw [step_of_reset hagent, resetTurn, popTurn, hturns, List.tail_cons]

/-! ### Error completion -/

/-- What a write to CMD in IDLE can have done: a command starts, or the launch ends with an error (30_encoding.md R94). -/
theorem writeCmd_forms (v : Word) {s t : State} (hb : s.busy = false) (h : writeCmd v s = .next t) :
    (∃ i, t = startCommand i (clearForLaunch s)) ∨ ∃ c, t = raiseError c (clearForLaunch s) := by
  rcases writeCmd_cases v s with ⟨i, -, e⟩ | ⟨_, -, e⟩ <;> rw [e] at h
  · rcases exec_forms i s t h with ⟨-, ht⟩ | ⟨-, ht⟩ | ⟨hbusy, -⟩
    · exact .inl ⟨i, ht⟩
    · exact .inr ht
    · exact absurd (hb.symm.trans hbusy) nofun
  · injection h with h
    exact .inr ⟨.illcmd, h.symm⟩

/-- Settles O31: a command that starts has no error, and an error completion rewrites R and the fields of the outcome alone. -/
theorem errorCompletionIsPrecise : Obligations.ErrorCompletionIsPrecise := by
  intro s t v hb h herr
  rcases writeCmd_forms v hb h with ⟨i, rfl⟩ | ⟨c, rfl⟩
  · exact absurd rfl herr
  · rfl

/-! ### The interrupt line -/

theorem irq_iff (s : State) : irq s = true ↔ s.ie = true ∧ s.done = true := by
  rw [irq, Bool.and_eq_true]

/-- Every command that answers a next state leaves DONE = not BUSY: it has ended, with or without an error, or it runs
(30_encoding.md R94, 60_exceptions.md R242, R243). -/
theorem exec_done_eq_not_busy {i : Instr} {s t : State} (hinv : s.Inv) (h : exec i s = .next t) : t.done = !t.busy := by
  rcases exec_forms i s t h with ⟨-, rfl⟩ | ⟨hb, c, rfl⟩ | ⟨hb, rfl⟩
  · rfl
  · simp [hb]
  · rcases engineWork_cases i s with ⟨-, S, e⟩ | ⟨x, f, q, g, y, e, -⟩ <;> rw [e]
    · simp [hb, hinv.busy_not_done hb]
    · rfl

/-- No command writes IE (10_state.md R32). -/
theorem exec_ie {i : Instr} {s t : State} (h : exec i s = .next t) : t.ie = s.ie := by
  obtain ⟨-, -, -, -, -, -, hie, -⟩ := commandFrame i s t h
  exact hie

/-- Settles O41: a command keeps IE and leaves DONE = not BUSY, and the line is low wherever DONE is 0. -/
theorem interruptFollowsEnableAndDone : Obligations.InterruptFollowsEnableAndDone := by
  refine ⟨irq_iff, fun i s t hinv hie h => ?_, fun v s hv => ?_, rfl⟩
  · rw [irq_iff, exec_ie h, exec_done_eq_not_busy hinv h, hie, Bool.not_eq_true', and_iff_right rfl]
  · rw [irq, writeStatus_done, if_pos hv, Bool.and_false]

end Sys2Proof.Machine
